-- ==== Sys2Proof/Word.lean ====
section
/-! DEFINITION. The smallest vocabulary of SBUS-RX: bytes, line levels, edges and the two operating modes
(spec/00_scope.md R12, R13; spec/10_state.md R34). All values are unsigned. -/

namespace Sys2Proof

/-- A byte of the frame buffer or a decoded word (R23). -/
abbrev Byte := BitVec 8

/-- The two readings of the input pin (R12): `L` is 0, `H` is 1. -/
inductive Level where
  | L
  | H
  deriving DecidableEq, Repr

/-- The number a level is written as: `H` = 1, `L` = 0 (R12, decision D2). -/
def Level.toBool : Level → Bool
  | .L => false
  | .H => true

/-- The level a bit stands for (R12). -/
def Level.ofBool : Bool → Level
  | false => .L
  | true => .H

/-- The direction of a transition on the watched pin (R138). -/
inductive Edge where
  | rise
  | fall
  deriving DecidableEq, Repr

/-- The operating mode fixed at `BEGIN` (R34): CONTINUOUS = 0, ON_DEMAND = 1. -/
inductive Mode where
  | continuous
  | onDemand
  deriving DecidableEq, Repr

/-- `arg[0]` of the `BEGIN` command word (R101). -/
def Mode.toBool : Mode → Bool
  | .continuous => false
  | .onDemand => true

def Mode.ofBool : Bool → Mode
  | false => .continuous
  | true => .onDemand

end Sys2Proof
end

