-- ==== Sys2Proof/Config.lean ====
section
/-! DEFINITION. The implementation parameters of spec/00_scope.md R11: the fixed sizes and constants, and the
free values, which are opaque constants without a body. `SAMPLE_PHASE` and `TERMINATOR` are open and read by no
rule, so nothing here stands for them. -/

namespace Sys2Proof

/-- `N_PAYLOAD`: bytes in the frame buffer (R11, R23). -/
@[simp] abbrev Config.nPayload : Nat := 23

/-- `SENTINEL`: the value word 0 must decode to (R11, R134). -/
@[simp] abbrev Config.sentinel : Byte := 0x0F#8

/-- `PAR_INIT`: the initial parity accumulator (R11, R22). -/
@[simp] abbrev Config.parInit : Byte := 0xFF#8

/-- The word index of the terminator, `N_WORDS` - 1 (R11, R25). -/
@[simp] abbrev Config.lastWord : Nat := 24

/-- `RAW_MIN` and `RAW_MAX`: what a binary channel reads as (R11, R163). -/
@[simp] abbrev Config.rawMin : BitVec 16 := 173#16
@[simp] abbrev Config.rawMax : BitVec 16 := 1812#16

/-- `SCALE_MUL`, `SCALE_DIV`, `SCALE_OFF` (R11, R166). -/
@[simp] abbrev Config.scaleMul : BitVec 16 := 5#16
@[simp] abbrev Config.scaleDiv : BitVec 16 := 8#16
@[simp] abbrev Config.scaleOff : BitVec 16 := 880#16

/-- The bits of the wall clock beyond its first. -/
opaque Config.wMsBeyondFirst : Nat

/-- `W_MS`: the width of the wall clock and of a timeout. OPEN (R11, U15): a free value, of which nothing is known but
that a clock has at least one bit (log 9). -/
abbrev Config.wMs : Nat := Config.wMsBeyondFirst + 1

/-- One more than the largest channel index: `W_IDX` = 8 bits (R11, R102; log 10). -/
@[simp] abbrev Config.idxBound : Nat := 256

/-- A wall-clock reading or a timeout, in milliseconds (R46, R185). -/
abbrev Ms := BitVec Config.wMs

/-- `PAYLOAD_INIT`: the byte at an offset of the frame buffer after `BEGIN`. OPEN (R43, R244, U1): a free value,
of which nothing is known (log 4). -/
opaque Config.payloadInit : Nat → Byte

/-- `T_BIT`: the bit period `BEGIN` configures the tick source for. A parameter no rule reads (R11, R264, U18):
a free value (log 19). -/
opaque Config.tBit : Nat

/-- The reading of the free-running tick counter at the n-th event. Its counting, width and clock are the platform's
(R45, R219): a free value (log 7). -/
opaque Config.tickCount : Nat → Nat

end Sys2Proof
end

