-- ==== Sys2Proof/Syntax.lean ====
section
/-! DEFINITION. The fifteen operations of spec/30_encoding.md R90, one constructor per row of
spec/opcode_table.json. -/

namespace Sys2Proof

/-- An operation of the block with its operands (R90). The receiver's three word operations carry the decoded byte
`D` (R134 to R136). `WAITFRAME` carries, beside its timeout, the clock reading that its step `WF_ARM` takes (R183). -/
inductive Instr where
  /-- `RX_START` (R131). -/
  | rxStart
  /-- `RX_DATA(lvl)` (R132). -/
  | rxData (lvl : Level)
  /-- `RX_PARITY(lvl)` (R133). -/
  | rxParity (lvl : Level)
  /-- `W_SENTINEL(D)` (R134). -/
  | wSentinel (d : Byte)
  /-- `W_STORE(D)` (R135). -/
  | wStore (d : Byte)
  /-- `W_TERM(D)` (R136). -/
  | wTerm (d : Byte)
  /-- `EDGE_IGN`: a falling edge (R138), or a rising edge that cannot start a word (R139). -/
  | edgeIgn (e : Edge)
  /-- `TICK_IGN(lvl)` (R140). -/
  | tickIgn (lvl : Level)
  /-- `BEGIN pin, m` (R181). -/
  | begin (pin : Nat) (m : Mode)
  /-- `WAITFRAME timeout @ now` (R182, R183). -/
  | waitframe (timeout now : Ms)
  /-- `WF_POLL now` (R184). -/
  | wfPoll (now : Ms)
  /-- `GETCHRAW idx` (R161). -/
  | getchraw (idx : Nat)
  /-- `GETCH idx` (R166). -/
  | getch (idx : Nat)
  /-- `SIGLOSS` (R167). -/
  | sigloss
  /-- `FAILSAFE` (R168). -/
  | failsafe
  deriving DecidableEq, Repr

end Sys2Proof
end

