-- ==== Sys2Proof/WellFormed.lean ====
section
/-! DEFINITION. Which terms of Instr are instructions: a channel index is an unsigned number of 8 bits
(spec/30_encoding.md R102). Every other operand has its range in its type. -/

namespace Sys2Proof

/-- Every operand lies in the range its encoding field has (R101, R102). -/
def Instr.wellFormed : Instr → Bool
  | .rxStart => true
  | .rxData _ => true
  | .rxParity _ => true
  | .wSentinel _ => true
  | .wStore _ => true
  | .wTerm _ => true
  | .edgeIgn _ => true
  | .tickIgn _ => true
  | .begin _ _ => true
  | .waitframe _ _ => true
  | .wfPoll _ => true
  | .getchraw idx => decide (idx < Config.idxBound)
  | .getch idx => decide (idx < Config.idxBound)
  | .sigloss => true
  | .failsafe => true

end Sys2Proof
end

