-- ==== Sys2Proof/Decode.lean ====
section
/-! DEFINITION. Input packets, the decoder and the encoder (spec/30_encoding.md R90 to R112).

An input of the block is a packet of one of the five formats of spec/opcode_table.json. Which operation a receiver
packet is "depends on the state, not on the cell alone" (R112), so the decoder takes the selecting state, a
Selection. Line patterns are numbered as the table writes them: the first level in time is the highest bit,
1 is `H` (R112; log 20). -/

namespace Sys2Proof

/-- One input of the block, still encoded. -/
inductive Packet where
  /-- Two line levels in time order (format line-event): 01 is `EDGE_RISE`, 10 is `EDGE_FALL`. -/
  | lineEvent (levels : BitVec 2)
  /-- The level read at a tick (format line-cell): the event `TICK(lvl)`. -/
  | lineCell (level : BitVec 1)
  /-- The twelve cells of a whole word on the wire (format line-word, R91): cell 0 is bit 11. -/
  | lineWord (cells : BitVec 12)
  /-- A command word of R100 with what stands beside it: the pin of `BEGIN`, the timeout of `WAITFRAME` and the
  clock reading of its arming (R100, R183; log 11). -/
  | command (cw : BitVec 16) (pin : Nat) (timeout now : Ms)
  /-- A poll of the wait in progress with the clock reading (format poll-step, R184). -/
  | poll (now : Ms)
  deriving DecidableEq, Repr

/-- The state that selects an operation: the `selected_by` entries of spec/opcode_table.json. -/
structure Selection where
  begun : Bool
  rxEn : Bool
  busy : Bool
  bi : BitVec 4
  wi : BitVec 5
  deriving DecidableEq, Repr

/-- The condition under which a rising edge starts a word (R131). -/
def Selection.canStart (sel : Selection) : Bool :=
  sel.begun && sel.rxEn && !sel.busy

/-- Why a packet decodes to no operation. -/
inductive Reject where
  /-- Two equal levels: no transition, so no event (R90). -/
  | noTransition
  /-- Twelve cells that do not begin with a start cell `H` (R91, R107). -/
  | noStartEdge
  /-- A whole word while no edge can start one (R139). -/
  | wordNotTaken
  /-- A whole word whose parity is bad: no word operation takes it (R133). -/
  | badParity
  /-- A bit index outside 1..9 while busy, or a word index above 24: no operation is selected (R24, R25). -/
  | noOperation
  /-- `op` in 0x6..0xF (R106). -/
  | illegalOpcode
  /-- `cw[11:8]` is not 0 (R106). -/
  | reservedBits
  /-- An argument bit is set where R101 wants 0 (R106). -/
  | badArgument
  deriving DecidableEq, Repr

/-! ### The word on the wire -/

/-- Level of cell k of a word, k in 0..11 (R91). -/
def cellLevel (cells : BitVec 12) (k : Nat) : Level :=
  Level.ofBool (cells.getLsbD (11 - k))

/-- The nine sampled levels of a word, sample 1 first (R91, R130). -/
def samples (cells : BitVec 12) : List Level :=
  [cellLevel cells 1, cellLevel cells 2, cellLevel cells 3, cellLevel cells 4, cellLevel cells 5,
   cellLevel cells 6, cellLevel cells 7, cellLevel cells 8, cellLevel cells 9]

/-- The decoded byte: bit b - 1 is 1 exactly when sample b is `L` (R92). -/
def wordByte (cells : BitVec 12) : Byte :=
  ~~~ (BitVec.ofBoolListLE
    [(cellLevel cells 1).toBool, (cellLevel cells 2).toBool, (cellLevel cells 3).toBool, (cellLevel cells 4).toBool,
     (cellLevel cells 5).toBool, (cellLevel cells 6).toBool, (cellLevel cells 7).toBool, (cellLevel cells 8).toBool])

/-- An odd number of the levels is `H`. -/
def oddHigh : List Level → Bool
  | [] => false
  | l :: ls => l.toBool ^^ oddHigh ls

/-- The even-parity bit of a byte: the exclusive or of its bits (R93). -/
def parityBit (d : Byte) : Bool :=
  d.getLsbD 0 ^^ d.getLsbD 1 ^^ d.getLsbD 2 ^^ d.getLsbD 3 ^^ d.getLsbD 4 ^^ d.getLsbD 5 ^^ d.getLsbD 6 ^^ d.getLsbD 7

/-- The twelve cells that carry a byte: start `H`, data bits LSB first and parity inverted, two stops `L` (R91, R93). -/
def wordCells (d : Byte) : BitVec 12 :=
  BitVec.ofBoolListBE
    [true, !d.getLsbD 0, !d.getLsbD 1, !d.getLsbD 2, !d.getLsbD 3, !d.getLsbD 4, !d.getLsbD 5, !d.getLsbD 6,
     !d.getLsbD 7, !parityBit d, false, false]

/-! ### Decoding -/

/-- A line event: a rising edge is `RX_START` when it can start a word, else `EDGE_IGN`; a falling edge is
`EDGE_IGN` (R131, R138, R139). -/
def decodeEvent (sel : Selection) (levels : BitVec 2) : Except Reject Instr :=
  if levels = 0b01#2 then
    if sel.canStart then .ok .rxStart else .ok (.edgeIgn .rise)
  else if levels = 0b10#2 then .ok (.edgeIgn .fall)
  else .error .noTransition

/-- A level read at a tick: `TICK_IGN` while idle, `RX_DATA` at bit index 1..8, `RX_PARITY` at 9 (R132, R133, R140). -/
def decodeCell (sel : Selection) (level : BitVec 1) : Except Reject Instr :=
  let lvl := Level.ofBool (level.getLsbD 0)
  if !sel.busy then .ok (.tickIgn lvl)
  else if 1 ≤ sel.bi.toNat ∧ sel.bi.toNat ≤ 8 then .ok (.rxData lvl)
  else if sel.bi.toNat = 9 then .ok (.rxParity lvl)
  else .error .noOperation

/-- A whole word with good parity, met by an idle receiver with the path open, is the operation its word index
selects (R90, R134 to R136). The stop cells are not looked at (R94). -/
def decodeWord (sel : Selection) (cells : BitVec 12) : Except Reject Instr :=
  if cellLevel cells 0 = .L then .error .noStartEdge
  else if !sel.canStart then .error .wordNotTaken
  else if !oddHigh (samples cells) then .error .badParity
  else if sel.wi.toNat = 0 then .ok (.wSentinel (wordByte cells))
  else if sel.wi.toNat < Config.lastWord then .ok (.wStore (wordByte cells))
  else if sel.wi.toNat = Config.lastWord then .ok (.wTerm (wordByte cells))
  else .error .noOperation

/-- A command word: `op` in bits 15:12, zeros in 11:8, `arg` in 7:0 (R100, R101); all else is illegal (R106). -/
def decodeCommand (cw : BitVec 16) (pin : Nat) (timeout now : Ms) : Except Reject Instr :=
  let op := cw.toNat / 4096
  let arg := cw.toNat % 256
  if 6 ≤ op then .error .illegalOpcode
  else if cw.toNat / 256 % 16 ≠ 0 then .error .reservedBits
  else if op = 0 then
    if arg < 2 then .ok (.begin pin (Mode.ofBool (cw.getLsbD 0))) else .error .badArgument
  else if op = 2 then .ok (.getchraw arg)
  else if op = 3 then .ok (.getch arg)
  else if arg ≠ 0 then .error .badArgument
  else if op = 1 then .ok (.waitframe timeout now)
  else if op = 4 then .ok .sigloss
  else .ok .failsafe

/-- The operation a packet stands for in a selecting state, or why there is none. -/
def decode (sel : Selection) : Packet → Except Reject Instr
  | .lineEvent levels => decodeEvent sel levels
  | .lineCell level => decodeCell sel level
  | .lineWord cells => decodeWord sel cells
  | .command cw pin timeout now => decodeCommand cw pin timeout now
  | .poll now => .ok (.wfPoll now)

/-! ### Encoding -/

/-- The packet of an operation, from the patterns of spec/opcode_table.json and R91, R93, R101. -/
def encode : Instr → Packet
  | .rxStart => .lineEvent 0b01#2
  | .rxData lvl => .lineCell (BitVec.ofBool lvl.toBool)
  | .rxParity lvl => .lineCell (BitVec.ofBool lvl.toBool)
  | .wSentinel d => .lineWord (wordCells d)
  | .wStore d => .lineWord (wordCells d)
  | .wTerm d => .lineWord (wordCells d)
  | .edgeIgn .rise => .lineEvent 0b01#2
  | .edgeIgn .fall => .lineEvent 0b10#2
  | .tickIgn lvl => .lineCell (BitVec.ofBool lvl.toBool)
  | .begin pin m => .command (BitVec.ofNat 16 m.toBool.toNat) pin 0 0
  | .waitframe timeout now => .command 0x1000#16 0 timeout now
  | .wfPoll now => .poll now
  | .getchraw idx => .command (BitVec.ofNat 16 (0x2000 + idx)) 0 0 0
  | .getch idx => .command (BitVec.ofNat 16 (0x3000 + idx)) 0 0 0
  | .sigloss => .command 0x4000#16 0 0 0
  | .failsafe => .command 0x5000#16 0 0 0

/-- The selecting state of an operation's row of spec/opcode_table.json. The command rows and `WF_POLL` are told
apart by their words alone. -/
def Selection.selects (sel : Selection) : Instr → Bool
  | .rxStart => sel.canStart
  | .rxData _ => sel.busy && decide (1 ≤ sel.bi.toNat) && decide (sel.bi.toNat ≤ 8)
  | .rxParity _ => sel.busy && sel.bi.toNat == 9
  | .wSentinel _ => sel.canStart && sel.wi.toNat == 0
  | .wStore _ => sel.canStart && decide (1 ≤ sel.wi.toNat) && decide (sel.wi.toNat ≤ 23)
  | .wTerm _ => sel.canStart && sel.wi.toNat == 24
  | .edgeIgn .rise => !sel.canStart
  | .edgeIgn .fall => true
  | .tickIgn _ => !sel.busy
  | .begin _ _ => true
  | .waitframe _ _ => true
  | .wfPoll _ => true
  | .getchraw _ => true
  | .getch _ => true
  | .sigloss => true
  | .failsafe => true

/-- A packet with the bits cleared that no operation reads: the stop cells of a word (R94), and beside a command word
the operands that its operation does not take (R100). -/
def Packet.canonical : Packet → Packet
  | .lineWord cells => .lineWord (cells &&& 0xFFC#12)
  | .command cw pin timeout now =>
    .command cw (if cw.toNat / 4096 = 0 then pin else 0) (if cw.toNat / 4096 = 1 then timeout else 0)
      (if cw.toNat / 4096 = 1 then now else 0)
  | p => p

/-! ### The opcode table's words -/

/-- The packet of a row's bits as the opcode table numbers them, in whole bytes or exactly: a command word or a
twelve-cell word (a word's start cell is bit 11, which a legal command word never sets), a poll, a two-level event, or
a one-level cell (log 22). What stands beside a command word is zero. -/
def tablePacket (nbits w : Nat) : Option Packet :=
  if nbits = 16 then
    if 2048 ≤ w ∧ w < 4096 then some (.lineWord (BitVec.ofNat 12 w))
    else some (.command (BitVec.ofNat 16 w) 0 0 0)
  else if nbits = 32 then some (.poll (BitVec.ofNat Config.wMs w))
  else if nbits = 12 then some (.lineWord (BitVec.ofNat 12 w))
  else if nbits = 1 ∨ nbits = 8 ∧ w = 0 then some (.lineCell (BitVec.ofNat 1 w))
  else if nbits = 2 ∨ nbits = 8 ∧ w < 4 then some (.lineEvent (BitVec.ofNat 2 w))
  else none

/-- The selecting state right after `BEGIN pin, CONTINUOUS` (R43): begun, path open, idle, word index 0. -/
def Selection.afterBegin : Selection :=
  { begun := true, rxEn := true, busy := false, bi := 0, wi := 0 }

/-- What the decoder reads from a table word, in the selecting state right after `BEGIN` (log 22). -/
def decodeTableWord (nbits w : Nat) : Option Instr :=
  match tablePacket nbits w with
  | none => none
  | some p =>
    match decode Selection.afterBegin p with
    | .ok i => some i
    | .error _ => none

/-! ### Formats -/

/-- The five formats of spec/opcode_table.json. -/
inductive Format where
  | lineEvent
  | lineCell
  | lineWord
  | commandWord
  | pollStep
  deriving DecidableEq, Repr

def Packet.format : Packet → Format
  | .lineEvent _ => .lineEvent
  | .lineCell _ => .lineCell
  | .lineWord _ => .lineWord
  | .command _ _ _ _ => .commandWord
  | .poll _ => .pollStep

/-- The "format" entry of an operation's row. -/
def Instr.rowFormat : Instr → Format
  | .rxStart => .lineEvent
  | .rxData _ => .lineCell
  | .rxParity _ => .lineCell
  | .wSentinel _ => .lineWord
  | .wStore _ => .lineWord
  | .wTerm _ => .lineWord
  | .edgeIgn _ => .lineEvent
  | .tickIgn _ => .lineCell
  | .begin _ _ => .commandWord
  | .waitframe _ _ => .commandWord
  | .wfPoll _ => .pollStep
  | .getchraw _ => .commandWord
  | .getch _ => .commandWord
  | .sigloss => .commandWord
  | .failsafe => .commandWord

end Sys2Proof
end

