-- ==== Sys2Proof/Machine/State.lean ====
section
/-! DEFINITION. The state of the block (spec/10_state.md R20), the reasons a step can stop, and the state at
power-on. -/

namespace Sys2Proof.Machine

/-- A `WAITFRAME` in progress: the clock reading at its arming and its timeout (R39). -/
structure Wait where
  t0 : Ms
  timeout : Ms
  deriving DecidableEq, Repr

/-- A result given to the host (R103): a 16-bit value of `GETCHRAW` or `GETCH`, or the bit of `WAITFRAME`, `SIGLOSS`
or `FAILSAFE`. -/
inductive Reply where
  | value (v : BitVec 16)
  | bit (b : Bool)
  deriving DecidableEq, Repr

/-- The state of the block: the thirteen items of R20, the platform configuration `BEGIN` makes (R181), and the
model's own interface fields. -/
structure State where
  /-- 0 from power-on until `BEGIN` (R37). -/
  begun : Bool
  /-- The operating mode, fixed at `BEGIN` (R34). -/
  mode : Mode
  /-- The reception-path enable (R35). -/
  rxEn : Bool
  /-- The word index, 0..24 (R25). -/
  wi : BitVec 5
  /-- The within-word bit index, 1..9 while busy (R24). -/
  bi : BitVec 4
  /-- The accumulator (R21). -/
  acc : BitVec 8
  /-- The parity accumulator, 0x00 or 0xFF (R22). -/
  par : BitVec 8
  /-- The receiver is in a word step (R27). -/
  busy : Bool
  /-- The frame buffer, offsets 0..22 (R14, R23, R60), as a list of offset and byte in canonical form (Memory.wf). Every
  offset holds a byte: one that is not listed holds 0x00 (log 5). -/
  payload : List Host.Cell
  /-- The platform's latched edge flags (R44). -/
  edgePend : Bool
  /-- The platform's free-running tick counter (R45). -/
  tickCnt : Nat
  /-- The platform's tick-ready flag (R45). -/
  tickReady : Bool
  /-- The exclusive-access bracket of the three-byte read (R38). -/
  guard : Bool
  /-- The wait in progress (R39). -/
  wf : Option Wait
  /-- The pin `BEGIN` configured as input and armed edge detection on (R181, R240). -/
  watchedPin : Option Nat
  /-- The period `BEGIN` configured the tick source for (R181, R219). -/
  tickPeriod : Option Nat
  /-- MODEL'S OWN: how many readings of the free-running tick counter have been drawn (log 7). -/
  drawn : Nat
  /-- MODEL'S OWN: the inputs still to come, in order (R8, R265; log 1). -/
  inputs : List Packet
  /-- MODEL'S OWN: the results given to the host, oldest first (R15, R103; log 18). -/
  returned : List Reply
  deriving DecidableEq, Repr

/-- Power-on: `begun` = 0, the pin not configured (R240). R43 leaves every other item unspecified there; the values
are a DESIGN CHOICE, unsafe (log 3, and log 5 for the 23 bytes of the buffer, which read 0x00). -/
def State.reset : State :=
  { begun := false
    mode := .continuous
    rxEn := false
    wi := 0
    bi := 0
    acc := 0
    par := 0
    busy := false
    payload := []
    edgePend := false
    tickCnt := 0
    tickReady := false
    guard := false
    wf := none
    watchedPin := none
    tickPeriod := none
    drawn := 0
    inputs := []
    returned := [] }

/-- The state that selects which operation an input is (R112). -/
def State.selection (s : State) : Selection :=
  { begun := s.begun, rxEn := s.rxEn, busy := s.busy, bi := s.bi, wi := s.wi }

/-- Where the machine stops. No error class of the block stops it (R200, R207): these are the stuck ends of a run
(R265) and accesses to bytes that do not exist. -/
inductive Fault where
  /-- Raised by step: the receiver is busy and no line input is left. The hang of R256: stuck, not final. Safe. -/
  | tickStall
  /-- Raised by step: a wait is in progress and no input is left (R265, U12). Safe. -/
  | waitUnfinished
  /-- Raised by step: the inputs are used up, the receiver idle, no wait in progress: the run has ended (R265). Safe. -/
  | inputsUsedUp
  /-- Raised by step: the guard is held at a step boundary and only line inputs are left. No state that a run reaches
  (R38). Safe. -/
  | guardHeld
  /-- Raised by a load or a store at an offset above 22, which does not exist (R14, R60). No operation reaches it. Safe. -/
  | noSuchOffset (offset : Nat)
  deriving DecidableEq, Repr

/-- Where the spec gives a step no meaning (R15, R206). -/
inductive Refusal where
  /-- Raised by exec's arm of an instruction that has no meaning yet. Safe. -/
  | notModelled (mnemonic : String)
  /-- Raised by step: the input is no event, no word or no command (R106, R188, D20). Safe. -/
  | illegalInput (r : Reject)
  /-- Raised by a receiver operation executed in a state that selects another (R90, R112). No step reaches it. Safe. -/
  | notEnabled
  /-- Raised by every command but `BEGIN`, and by a poll, while `begun` = 0 (R106, R188, D8). Safe. -/
  | notBegun
  /-- Raised by `BEGIN` while `begun` = 1 (R181, R188, D8). Safe. -/
  | alreadyBegun
  /-- Raised by a command while a wait is in progress (R188, U9). Safe. -/
  | waitInProgress
  /-- Raised by `WF_POLL` while no wait is in progress: it is not enabled (R184). Safe. -/
  | noWait
  /-- Raised by a command or poll executed while the receiver is busy (R27, R73). No step reaches it. Safe. -/
  | receiverBusy
  deriving DecidableEq, Repr

end Sys2Proof.Machine
end

