-- ==== Sys2Proof/Machine/Flags.lean ====
section
/-! DEFINITION. The one computed flag, the parity accumulator (spec/10_state.md R22, R29), the parity check of
spec/40_receiver.md R133, and the bits of the received flags byte (R30). -/

namespace Sys2Proof.Machine

/-- The parity accumulator after a data sample: flipped by `H`, left by `L` (R22, R132). -/
def parityAfter (par : BitVec 8) : Level → BitVec 8
  | .H => ~~~par
  | .L => par

/-- The word is good exactly when (`par` ≠ 0) = (`lvl` = `H`) (R133). -/
def parityOk (par : BitVec 8) (lvl : Level) : Bool :=
  (par != 0x00#8) == (lvl == .H)

/-- Offset of the flags byte (R30). -/
@[simp] abbrev flagsOffset : Nat := 22

/-- Bit numbers of the flags byte (R30): channel 17, channel 18, signal loss, failsafe. -/
@[simp] abbrev ch17Bit : Nat := 0
@[simp] abbrev ch18Bit : Nat := 1
@[simp] abbrev signalLossBit : Nat := 2
@[simp] abbrev failsafeBit : Nat := 3

end Sys2Proof.Machine
end

