-- ==== Sys2Proof/Machine/Operands.lean ====
section
/-! DEFINITION. The operand forms of the extractor: the channel layout table (spec/30_encoding.md R104), what a
channel index names (R161), and the arithmetic on the bytes read (R162, R163, R166) and on clock readings (R185). -/

namespace Sys2Proof.Machine

/-- An entry of the layout table: the offset of the channel's first byte, its right shift, the left shift of the next
byte, and of the byte after that unless it is `UNUSED` (R104, R105). -/
structure LayoutEntry where
  off : Nat
  s1 : Nat
  s2 : Nat
  s3 : Option Nat
  deriving DecidableEq, Repr

/-- `LAYOUT`, the entries of channels 1 to 16 in order (R104). -/
def layoutTable : List LayoutEntry :=
  [⟨0, 0, 8, none⟩, ⟨1, 3, 5, none⟩, ⟨2, 6, 2, some 10⟩, ⟨4, 1, 7, none⟩] ++
  [⟨5, 4, 4, none⟩, ⟨6, 7, 1, some 9⟩, ⟨8, 2, 6, none⟩, ⟨9, 5, 3, none⟩] ++
  [⟨11, 0, 8, none⟩, ⟨12, 3, 5, none⟩, ⟨13, 6, 2, some 10⟩, ⟨15, 1, 7, none⟩] ++
  [⟨16, 4, 4, none⟩, ⟨17, 7, 1, some 9⟩, ⟨19, 2, 6, none⟩, ⟨20, 5, 3, none⟩]

/-- What a channel index names (R161). -/
inductive Channel where
  /-- 1..16: a proportional channel, with its layout entry (R162). -/
  | prop (e : LayoutEntry)
  /-- 17 and 18: a binary channel, with its bit of the flags byte (R163). -/
  | binary (bit : Nat)
  /-- Any other index: `InvalidIndex` (R164). -/
  | invalid
  deriving DecidableEq, Repr

/-- The dispatch of `GETCHRAW` on its index (R161). -/
def channelOf (idx : Nat) : Channel :=
  if idx = 0 then .invalid
  else
    match layoutTable[idx - 1]? with
    | some e => .prop e
    | none => if idx = 17 then .binary ch17Bit else if idx = 18 then .binary ch18Bit else .invalid

/-- `(b1 >> s1) | (b2 << s2) | t3`, computed without losing bits, then cut to 11 bits (R162). -/
def combine (e : LayoutEntry) (b1 b2 b3 : Byte) : BitVec 16 :=
  let t3 :=
    match e.s3 with
    | none => 0
    | some n => b3.toNat <<< n
  BitVec.ofNat 16 (((b1.toNat >>> e.s1) ||| (b2.toNat <<< e.s2) ||| t3) &&& 0x7FF)

/-- A binary channel's raw value: 1812 when its flag bit is set, 173 when clear (R163). -/
def binaryRaw (flag : Bool) : BitVec 16 :=
  if flag then Config.rawMax else Config.rawMin

/-- `((raw * 5) / 8) + 880`: multiply first, then the truncating division (R166). -/
def rescale (raw : BitVec 16) : BitVec 16 :=
  raw * Config.scaleMul / Config.scaleDiv + Config.scaleOff

/-- `Elapsed(t0, now)` = (`now` - `t0`) modulo 2 to the clock's width (R185). -/
def elapsed {w : Nat} (t0 now : BitVec w) : BitVec w :=
  now - t0

/-- The time is over: elapsed strictly greater than the timeout (R184), at every width of the clock. -/
def timedOut {w : Nat} (t0 timeout now : BitVec w) : Bool :=
  decide (timeout < elapsed t0 now)

/-- The wait's time is over (R184). -/
def Wait.expired (wt : Wait) (now : Ms) : Bool :=
  timedOut wt.t0 wt.timeout now

end Sys2Proof.Machine
end

