-- ==== Sys2Proof/Machine/Ops.lean ====
section
/-! DEFINITION. The named operations over the frame buffer and the registers that the meanings share: memory,
interrupt entry and return (spec/60_exceptions.md R214, R216), the receive errors (R200), results and refusals. -/

namespace Sys2Proof.Machine

/-- What one step of the model answers. -/
abbrev Result := Host.Outcome State Fault Refusal

/-- Go on from a next state; a fault or a refusal ends. -/
def Result.andThen (r : Result) (k : State → Result) : Result :=
  match r with
  | .next s => k s
  | .fault f => .fault f
  | .refused f => .refused f

/-! ### The frame buffer -/

/-- What an offset that is not listed reads as: 0x00, the byte of an offset nothing has written (DESIGN CHOICE, unsafe:
log 5). -/
abbrev Memory.unlisted : Byte := 0x00

/-- The byte at an offset. -/
def Memory.read (a : Nat) : List Host.Cell → Byte
  | [] => Memory.unlisted
  | (k, v) :: m => if k = a then v else Memory.read a m

/-- Take an offset out of the list. -/
def Memory.erase (a : Nat) (m : List Host.Cell) : List Host.Cell :=
  m.filter fun c => c.1 != a

/-- List a byte at an offset that is not listed, keeping the offsets strictly rising. -/
def Memory.insert (a : Nat) (v : Byte) : List Host.Cell → List Host.Cell
  | [] => [(a, v)]
  | (k, w) :: m => if a < k then (a, v) :: (k, w) :: m else (k, w) :: Memory.insert a v m

/-- Put a byte at an offset, keeping the canonical form. -/
def Memory.write (a : Nat) (v : Byte) (m : List Host.Cell) : List Host.Cell :=
  if v = Memory.unlisted then Memory.erase a m else Memory.insert a v (Memory.erase a m)

/-- Offsets strictly rising from `lo` on and inside the buffer (R60), and no byte listed that is read unlisted. -/
def Memory.rising (lo : Nat) : List Host.Cell → Bool
  | [] => true
  | (k, v) :: m => decide (lo ≤ k) && decide (k < Config.nPayload) && v != Memory.unlisted && Memory.rising (k + 1) m

/-- The canonical form of the frame buffer: strictly rising offsets in 0..22, none with the byte it reads unlisted. -/
def Memory.wf (m : List Host.Cell) : Bool := Memory.rising 0 m

/-- The buffer with the bytes of a function at the given offsets. -/
def Memory.fill (f : Nat → Byte) : List Nat → List Host.Cell
  | [] => []
  | k :: ks => Memory.write k (f k) (Memory.fill f ks)

/-- The buffer after `BEGIN`: `PAYLOAD_INIT` (R43, R181). -/
def Memory.initial : List Host.Cell :=
  Memory.fill Config.payloadInit (List.range Config.nPayload)

/-- The byte at an offset of the frame buffer: `payload[a]` (R14). -/
def State.byteAt (s : State) (a : Nat) : Byte := Memory.read a s.payload

/-- `MemRead(k, 1)`: defined for the offsets of the buffer (R14). -/
def load1 (k : Nat) (s : State) : Except Fault Byte :=
  if k < Config.nPayload then .ok (s.byteAt k) else .error (.noSuchOffset k)

/-- `MemRead(k, 3)`: three consecutive bytes in one atomic step (R14, R66). -/
def load3 (k : Nat) (s : State) : Except Fault (Byte × Byte × Byte) :=
  match load1 k s, load1 (k + 1) s, load1 (k + 2) s with
  | .ok b1, .ok b2, .ok b3 => .ok (b1, b2, b3)
  | .error f, _, _ => .error f
  | _, .error f, _ => .error f
  | _, _, .error f => .error f

/-- `payload[k] <- v` on an offset of the buffer (R14). -/
def State.putByte (s : State) (k : Nat) (v : Byte) : State :=
  { s with payload := Memory.write k v s.payload }

/-- `MemWrite(k, 1, v)`: faults above offset 22 (R60). -/
def store1 (k : Nat) (v : Byte) (s : State) : Result :=
  if k < Config.nPayload then .next (s.putByte k v) else .fault (.noSuchOffset k)

/-! ### Registers of the receiver -/

/-- Interrupt entry, all of it (R131, R214): the tick source is reset and the working registers initialised. Nothing is
saved, and nothing CX can see changes. -/
def State.enterWord (s : State) : State :=
  { s with tickCnt := 0, tickReady := false, bi := 1, acc := 0x00#8, par := Config.parInit, busy := true }

/-- Interrupt return (R141, R216): clear the latched edge flags and go idle. Nothing is restored; `acc`, `par` and `bi`
keep their last values, as R28 lets a model do (log 6). -/
def State.leaveWord (s : State) : State :=
  { s with edgePend := false, busy := false }

/-- Clear the tick-ready flag after seeing it set (R132, R133). -/
def State.clearTick (s : State) : State :=
  { s with tickReady := false }

/-- Bit `bi` - 1 of the accumulator set by a high sample (R21, R132). -/
def accAfter (acc : BitVec 8) (bi : BitVec 4) : Level → BitVec 8
  | .H => acc ||| (1#8 <<< (bi.toNat - 1))
  | .L => acc

/-- One data sample into `acc`, `par` and `bi` (R132). -/
def State.takeSample (s : State) (lvl : Level) : State :=
  { s with acc := accAfter s.acc s.bi lvl, par := parityAfter s.par lvl, bi := s.bi + 1 }

/-- Move the sequencer: `wi <- t` (R14, R26). -/
def State.setWi (s : State) (t : BitVec 5) : State :=
  { s with wi := t }

/-- `raise ParityError` and `raise FramingError`, the one thing either does: reset the word index (R200 to R202, R144).
Nothing is recorded (R205). -/
def State.raiseReceiveError (s : State) : State := s.setWi 0

/-- Close the reception path: `rx_en <- 0` (R136, R187). -/
def State.closePath (s : State) : State :=
  { s with rxEn := false }

/-- Clear the latched edge flags (R138). -/
def State.clearEdges (s : State) : State :=
  { s with edgePend := false }

/-! ### Registers of the consumer side -/

/-- `guard <- b` (R38, R162). -/
def State.setGuard (s : State) (b : Bool) : State :=
  { s with guard := b }

/-- `return v`: give the host a result (R15). -/
def State.reply (s : State) (r : Reply) : State :=
  { s with returned := s.returned ++ [r] }

/-- What `BEGIN pin, m` establishes (R43, R181): the platform configuration and the initial state. The items R43 calls
unspecified there keep their values, which is the model's choice: `acc`, `par`, `bi` (log 6), `tick_cnt` and
`tick_ready` (log 27). -/
def State.initialise (s : State) (pin : Nat) (m : Mode) : State :=
  { s with
    watchedPin := some pin
    tickPeriod := some Config.tBit
    mode := m
    wi := 0
    busy := false
    payload := Memory.initial
    wf := none
    edgePend := false
    guard := false
    rxEn := (m == .continuous)
    begun := true }

/-- `WF_ARM`: drop stale edges, open the path, note the time and the timeout (R183). -/
def State.armWait (s : State) (timeout now : Ms) : State :=
  { s with edgePend := false, rxEn := true, wf := some ⟨now, timeout⟩ }

/-- `wf <- none`: the wait is over (R184). -/
def State.endWait (s : State) : State :=
  { s with wf := none }

/-- One turn of the wait loop (R184): completion is tested first, then the time; on a timeout the path stays open. -/
def State.pollTurn (s : State) (wt : Wait) (now : Ms) : State :=
  if !s.rxEn then s.endWait.reply (.bit true)
  else if wt.expired now then s.endWait.reply (.bit false)
  else s

/-- A command of the consumer side runs when the block has begun, the receiver is idle and no wait is in progress
(R160, R186, R188); elsewhere it is refused by name (R106). -/
def ifCommandReady (s : State) (k : Result) : Result :=
  if !s.begun then .refused .notBegun
  else if s.busy then .refused .receiverBusy
  else if s.wf.isSome then .refused .waitInProgress
  else k

/-- `GETCHRAW`'s raw value and the state after its guarded load (R161 to R164). -/
def rawValue (idx : Nat) (s : State) : Except Fault (BitVec 16 × State) :=
  match channelOf idx with
  | .prop e =>
    match load3 e.off (s.setGuard true) with
    | .ok (b1, b2, b3) => .ok (combine e b1 b2 b3, (s.setGuard true).setGuard false)
    | .error f => .error f
  | .binary k =>
    match load1 flagsOffset s with
    | .ok f => .ok (binaryRaw (f.getLsbD k), s)
    | .error f => .error f
  | .invalid => .ok (0#16, s)

/-- One bit of the flags byte as a result (R167, R168). -/
def replyFlag (k : Nat) (s : State) : Result :=
  match load1 flagsOffset s with
  | .ok f => .next (s.reply (.bit (f.getLsbD k)))
  | .error f => .fault f

/-! ### What the environment does when an input arrives -/

/-- The packet is a transition on the line. -/
def isEdgePacket : Packet → Bool
  | .lineEvent levels => levels == 0b01#2 || levels == 0b10#2
  | .lineCell _ => false
  | .lineWord _ => false
  | .command _ _ _ _ => false
  | .poll _ => false

/-- The packet is a tick. -/
def isTickPacket : Packet → Bool
  | .lineEvent _ => false
  | .lineCell _ => true
  | .lineWord _ => false
  | .command _ _ _ _ => false
  | .poll _ => false

/-- The platform's part of an event (R44, R45; log 7, log 8): the line latches a transition while the path is open, the
tick source has set its ready flag at a tick, and the free-running counter has run on to a free value. -/
def State.deliver (s : State) (p : Packet) : State :=
  { s with
    edgePend := s.edgePend || (isEdgePacket p && s.begun && s.rxEn)
    tickReady := s.tickReady || isTickPacket p
    tickCnt := Config.tickCount s.drawn
    drawn := s.drawn + 1 }

/-- The packet is an input of CX, the main context: a command or a poll (R9, R223). -/
def isMainPacket : Packet → Bool
  | .lineEvent _ => false
  | .lineCell _ => false
  | .lineWord _ => false
  | .command _ _ _ _ => true
  | .poll _ => true

end Sys2Proof.Machine
end

