-- ==== Sys2Proof/Machine/Control.lean ====
section
/-! DEFINITION. The control family: initialisation and the bounded wait (spec/42_control.md). -/

namespace Sys2Proof.Machine

/-- `BEGIN pin, m` (R181): once, while `begun` = 0. -/
def execBegin (pin : Nat) (m : Mode) (s : State) : Result :=
  if s.begun then .refused .alreadyBegun else .next (s.initialise pin m)

/-- `WAITFRAME timeout @ now`: success at once in continuous mode (R182), the step `WF_ARM` in on-demand mode (R183). -/
def execWaitframe (timeout now : Ms) (s : State) : Result :=
  ifCommandReady s <|
    match s.mode with
    | .continuous => .next (s.reply (.bit true))
    | .onDemand => .next (s.armWait timeout now)

/-- `WF_POLL now` (R184): one turn of the wait in progress. -/
def execWfPoll (now : Ms) (s : State) : Result :=
  if !s.begun then .refused .notBegun
  else if s.busy then .refused .receiverBusy
  else
    match s.wf with
    | none => .refused .noWait
    | some wt => .next (s.pollTurn wt now)

end Sys2Proof.Machine
end

