-- ==== Sys2Proof/Machine/Extractor.lean ====
section
/-! DEFINITION. The extractor family: the bit-field unpacker (spec/41_channel_extractor.md). -/

namespace Sys2Proof.Machine

/-- `GETCHRAW idx` (R161 to R164). -/
def execGetchraw (idx : Nat) (s : State) : Result :=
  ifCommandReady s <|
    match rawValue idx s with
    | .ok (v, t) => .next (t.reply (.value v))
    | .error f => .fault f

/-- `GETCH idx` (R166): the raw value rescaled. -/
def execGetch (idx : Nat) (s : State) : Result :=
  ifCommandReady s <|
    match rawValue idx s with
    | .ok (v, t) => .next (t.reply (.value (rescale v)))
    | .error f => .fault f

/-- `SIGLOSS` (R167): bit 2 of the flags byte. -/
def execSigloss (s : State) : Result :=
  ifCommandReady s (replyFlag signalLossBit s)

/-- `FAILSAFE` (R168): bit 3 of the flags byte. -/
def execFailsafe (s : State) : Result :=
  ifCommandReady s (replyFlag failsafeBit s)

end Sys2Proof.Machine
end

