-- ==== Sys2Proof/Machine/Receiver.lean ====
section
/-! DEFINITION. The receiver family: bit sampling, parity check, framing state machine (spec/40_receiver.md). An
operation executed in a state that selects another one is refused as notEnabled: the spec has no such step, and the
decoder never gives one (R112; log 15). -/

namespace Sys2Proof.Machine

/-- `RX_START` (R131): enabled when begun, the path open and the receiver idle. -/
def execRxStart (s : State) : Result :=
  if s.selection.canStart then .next s.enterWord else .refused .notEnabled

/-- `RX_DATA(lvl)` (R132): enabled when busy with `bi` in 1..8. -/
def execRxData (lvl : Level) (s : State) : Result :=
  if s.busy ∧ 1 ≤ s.bi.toNat ∧ s.bi.toNat ≤ 8 then .next (s.clearTick.takeSample lvl) else .refused .notEnabled

/-- `W_SENTINEL(D)` (R134): at `wi` = 0. -/
def execWSentinel (d : Byte) (s : State) : Result :=
  if s.wi.toNat = 0 then
    if d = Config.sentinel then .next (s.setWi 1) else .next s.raiseReceiveError
  else .refused .notEnabled

/-- `W_STORE(D)` (R135): at `wi` in 1..23. -/
def execWStore (d : Byte) (s : State) : Result :=
  if 1 ≤ s.wi.toNat ∧ s.wi.toNat ≤ 23 then
    (store1 (s.wi.toNat - 1) d s).andThen fun t => .next (t.setWi (t.wi + 1))
  else .refused .notEnabled

/-- `W_TERM(D)` (R136): at `wi` = 24. The byte is discarded. -/
def execWTerm (_d : Byte) (s : State) : Result :=
  if s.wi.toNat = 24 then
    .next ((if s.mode = .onDemand then s.closePath else s).setWi 0)
  else .refused .notEnabled

/-- The word dispatch of `RX_PARITY` (R133). -/
def dispatchWord (d : Byte) (s : State) : Result :=
  if s.wi.toNat = 0 then execWSentinel d s
  else if s.wi.toNat = 24 then execWTerm d s
  else execWStore d s

/-- `RX_PARITY(lvl)` (R133): enabled when busy with `bi` = 9. -/
def execRxParity (lvl : Level) (s : State) : Result :=
  if s.busy ∧ s.bi.toNat = 9 then
    (if parityOk s.par lvl then dispatchWord (~~~s.acc) s.clearTick
      else .next s.clearTick.raiseReceiveError).andThen fun t => .next t.leaveWord
  else .refused .notEnabled

/-- `EDGE_IGN`: a falling edge clears the latch and nothing else (R138); a rising edge that cannot start a word changes
nothing (R139). -/
def execEdgeIgn (e : Edge) (s : State) : Result :=
  match e with
  | .fall => .next s.clearEdges
  | .rise => if s.selection.canStart then .refused .notEnabled else .next s

/-- `TICK_IGN(lvl)` (R140): a tick while idle changes nothing. -/
def execTickIgn (_lvl : Level) (s : State) : Result :=
  if s.busy then .refused .notEnabled else .next s

end Sys2Proof.Machine
end

