-- ==== Sys2Proof/Machine/Dispatch.lean ====
section
/-! DEFINITION. One arm per operation of spec/30_encoding.md R90. -/

namespace Sys2Proof.Machine

def exec (i : Instr) (s : State) : Host.Outcome State Fault Refusal :=
  match i with
  | .rxStart => Sys2Proof.Machine.execRxStart s
  | .rxData lvl => Sys2Proof.Machine.execRxData lvl s
  | .rxParity lvl => Sys2Proof.Machine.execRxParity lvl s
  | .wSentinel d => Sys2Proof.Machine.execWSentinel d s
  | .wStore d => Sys2Proof.Machine.execWStore d s
  | .wTerm d => Sys2Proof.Machine.execWTerm d s
  | .edgeIgn e => Sys2Proof.Machine.execEdgeIgn e s
  | .tickIgn lvl => Sys2Proof.Machine.execTickIgn lvl s
  | .begin pin m => Sys2Proof.Machine.execBegin pin m s
  | .waitframe timeout now => Sys2Proof.Machine.execWaitframe timeout now s
  | .wfPoll now => Sys2Proof.Machine.execWfPoll now s
  | .getchraw idx => Sys2Proof.Machine.execGetchraw idx s
  | .getch idx => Sys2Proof.Machine.execGetch idx s
  | .sigloss => Sys2Proof.Machine.execSigloss s
  | .failsafe => Sys2Proof.Machine.execFailsafe s

end Sys2Proof.Machine
end

