-- ==== Sys2Proof/Machine/Schedule.lean ====
section
/-! DEFINITION. Which input is served next, and serving it (spec/20_memory.md R71 to R76). -/

namespace Sys2Proof.Machine

/-- The input is held back: CX's while the receiver is busy (R73, R213), the line's while the guard is held (R38, R76). -/
def held (busy guard : Bool) (p : Packet) : Bool :=
  (busy && isMainPacket p) || (guard && !isMainPacket p)

/-- The first input that is not held back, and the inputs left, in their order. -/
def takeInput (busy guard : Bool) : List Packet → Option (Packet × List Packet)
  | [] => none
  | p :: ps =>
    if held busy guard p then
      match takeInput busy guard ps with
      | some (q, rest) => some (q, p :: rest)
      | none => none
    else some (p, ps)

/-- Why no input can be served (R256, R265). -/
def stuckReason (s : State) : Fault :=
  if s.busy then .tickStall
  else if s.guard && !s.inputs.isEmpty then .guardHeld
  else if s.wf.isSome then .waitUnfinished
  else .inputsUsedUp

/-- One event: the platform's part, then the operation the decoder selects in the present state; an input that is no
event or no command is refused. -/
def perform (p : Packet) (s : State) : Result :=
  match decode s.selection p with
  | .ok i => exec i (s.deliver p)
  | .error r => .refused (.illegalInput r)

/-- Events in order, as long as each answers a next state. -/
def performAll : List Packet → State → Result
  | [], s => .next s
  | p :: ps, s => (perform p s).andThen (performAll ps)

/-- The ten events of a word on the wire: the rising edge and the nine samples (R111, R130). That the two stop cells give
no event, not even where they hold a rising edge, which R94 lets start the next word, is a DESIGN CHOICE: such an edge is
a lineEvent input of its own (log 28). -/
def wordEvents (cells : BitVec 12) : List Packet :=
  .lineEvent 0b01#2 :: (samples cells).map fun l => .lineCell (BitVec.ofBool l.toBool)

/-- A whole word on the wire taken as one step (R73; log 12): its ten events in order. Twelve cells without a start cell
are no word (R107). -/
def performWord (cells : BitVec 12) (s : State) : Result :=
  if cellLevel cells 0 = .H then performAll (wordEvents cells) s else .refused (.illegalInput .noStartEdge)

/-- Serve one input. -/
def serve (p : Packet) (s : State) : Result :=
  match p with
  | .lineWord cells => performWord cells s
  | p => perform p s

/-- The inputs replaced. -/
def State.withInputs (s : State) (ps : List Packet) : State :=
  { s with inputs := ps }

/-- The state in which a table word is run as the first input: an un-begun block is taken directly in a post-`BEGIN`
state (R240), on-demand with a wait armed for a poll, continuous for the rest. A begun block, and one that gets `BEGIN`,
is left as it is (log 2). -/
def readyFor (p : Packet) (s : State) : State :=
  if s.begun then s
  else
    match decode Selection.afterBegin p with
    | .ok (.begin _ _) => s
    | .ok (.wfPoll _) => (s.initialise 0 .onDemand).armWait 0 0
    | _ => s.initialise 0 .continuous

/-- The packet of a table word stored as the only input, in a state in which the very next step serves it. A word of a
length no row has leaves no input. -/
def loadTableWord (s : State) (nbits w : Nat) : State :=
  match tablePacket nbits w with
  | some p => (readyFor p s).withInputs [p]
  | none => s.withInputs []

end Sys2Proof.Machine
end

