-- ==== Sys2Proof/Machine/Step.lean ====
section
/-! DEFINITION. One step of the block: the next input that is not held back is served (spec/00_scope.md R8). -/

namespace Sys2Proof.Machine

/-- One step. A run is a list of inputs; where none can be served the machine stops, by name (R256, R265). -/
def step (s : State) : Host.Outcome State Fault Refusal :=
  match takeInput s.busy s.guard s.inputs with
  | some (p, rest) => serve p (s.withInputs rest)
  | none => .fault (stuckReason s)

/-- The state with a table word placed where the next step takes its input (log 2). -/
def State.withFetchWord (s : State) (nbits w : Nat) : State :=
  loadTableWord s nbits w

end Sys2Proof.Machine
end

