-- ==== Sys2Proof/Safety.lean ====
section
/-! DEFINITION. What holds of every state a run reaches, and the conditions the statements name. -/

namespace Sys2Proof.Machine

/-- The invariant of the block. It holds at power-on and every step keeps it. -/
structure State.Inv (s : State) : Prop where
  /-- "word index is always in 0..24" (R25, R32 (a)). -/
  wordIndex : s.wi.toNat ≤ 24
  /-- The parity accumulator holds one of its two values (R22). -/
  parityValue : s.par = 0xFF#8 ∨ s.par = 0x00#8
  /-- A word is in progress only in a begun block with the path open (R27, R131). -/
  busyOpen : s.busy = true → s.begun = true ∧ s.rxEn = true
  /-- The bit index is 1..9 while busy (R24). -/
  bitIndex : s.busy = true → 1 ≤ s.bi.toNat ∧ s.bi.toNat ≤ 9
  /-- While busy, `par` is 0xFF exactly when an even number of the samples taken were `H` (R22). -/
  parityCount : s.busy = true → s.par = if parityBit s.acc then 0x00#8 else 0xFF#8
  /-- While busy, only the bits of the samples taken can be set in `acc` (R21). -/
  accBits : s.busy = true → s.acc.toNat < 2 ^ (s.bi.toNat - 1)
  /-- While busy, the tick-ready flag has been seen and cleared (R45, R131, R132). -/
  tickSeen : s.busy = true → s.tickReady = false
  /-- An edge stays latched only inside a word (R44, R138, R141). -/
  edgeLatch : s.edgePend = true → s.busy = true
  /-- The guard is 0 at every step boundary (R38). -/
  guardFree : s.guard = false
  /-- A wait is in progress only in on-demand mode (R39). -/
  waitMode : s.wf.isSome = true → s.begun = true ∧ s.mode = .onDemand
  /-- In continuous mode the path is open from `BEGIN` on (R35). -/
  pathOpen : s.begun = true → s.mode = .continuous → s.rxEn = true
  /-- A pin is watched exactly from `BEGIN` on (R37, R240). -/
  pinWatched : s.watchedPin.isSome = s.begun
  /-- The frame buffer is in canonical form. -/
  bufferForm : Memory.wf s.payload = true

/-- The state admits a command of the consumer side (R160, R186): begun, receiver idle, no wait in progress. -/
abbrev State.CommandReady (s : State) : Prop :=
  s.begun = true ∧ s.busy = false ∧ s.wf = none

/-- The state admits a word: begun, path open, receiver idle (R131). -/
abbrev State.WordReady (s : State) : Prop :=
  s.begun = true ∧ s.rxEn = true ∧ s.busy = false

/-- The host's six commands (R109). `WF_POLL` is a step of `WAITFRAME`, not a command. -/
def isCommand : Instr → Bool
  | .begin _ _ => true
  | .waitframe _ _ => true
  | .getchraw _ => true
  | .getch _ => true
  | .sigloss => true
  | .failsafe => true
  | .rxStart => false
  | .rxData _ => false
  | .rxParity _ => false
  | .wSentinel _ => false
  | .wStore _ => false
  | .wTerm _ => false
  | .edgeIgn _ => false
  | .tickIgn _ => false
  | .wfPoll _ => false

/-- The four reads of the extractor family (R160). -/
def isRead : Instr → Bool
  | .getchraw _ => true
  | .getch _ => true
  | .sigloss => true
  | .failsafe => true
  | .begin _ _ => false
  | .waitframe _ _ => false
  | .rxStart => false
  | .rxData _ => false
  | .rxParity _ => false
  | .wSentinel _ => false
  | .wStore _ => false
  | .wTerm _ => false
  | .edgeIgn _ => false
  | .tickIgn _ => false
  | .wfPoll _ => false

/-- Bit n of the 22 channel bytes taken as one string: bit (n mod 8) of `payload[n / 8]` (R62). -/
def State.stringBit (s : State) (n : Nat) : Bool :=
  (s.byteAt (n / 8)).getLsbD (n % 8)

/-- A word with the level of cell b inverted (R143). -/
def invertCell (cells : BitVec 12) (b : Nat) : BitVec 12 :=
  cells ^^^ (1#12 <<< (11 - b))

/-- The input that carries a byte on the wire with good parity: `WORD v` (R111). -/
def goodWord (v : Byte) : Packet := .lineWord (wordCells v)

end Sys2Proof.Machine
end

