-- ==== Sys2Proof/Certificates/Slice0/Obligations.lean ====
section
/-! DEFINITION. The statements for the provers. Each docstring names the rule of spec/ it rests on. -/

open Sys2Proof Sys2Proof.Machine

/-! ### Reset and initialisation -/

/-- R240, R37: at power-on the block has not begun, no pin is watched, and every command but `BEGIN`, and a poll, is
refused. The other values of the reset state are the model's choice (log 3) and are not stated. -/
def Obligations.PowerOnAdmitsOnlyBegin : Prop :=
  State.reset.begun = false ∧ State.reset.watchedPin = none ∧
  (∀ i, isCommand i = true → (∀ pin m, i ≠ .begin pin m) → exec i State.reset = .refused .notBegun) ∧
  (∀ now, exec (.wfPoll now) State.reset = .refused .notBegun) ∧
  (∀ pin m, ∃ t, exec (.begin pin m) State.reset = .next t)

/-- R181, R43: what `BEGIN` establishes, `guard` = 0 among it (R43); a second `BEGIN` is refused. `PAYLOAD_INIT` is the
free value Config.payloadInit, and `T_BIT` is the free value Config.tBit. That `acc`, `par` and `bi` keep their values
(log 6), and `tick_cnt` and `tick_ready` (log 27), is the model's choice: R43 and R28 call them unspecified there. -/
def Obligations.BeginEstablishesInitialState : Prop :=
  (∀ (pin : Nat) (m : Mode) (s : State), s.begun = false →
    exec (.begin pin m) s = .next
      { s with
        watchedPin := some pin, tickPeriod := some Config.tBit, mode := m, wi := 0, busy := false,
        payload := Memory.initial, wf := none, edgePend := false,
        guard := false, rxEn := (m == .continuous), begun := true }) ∧
  (∀ (pin : Nat) (m : Mode) (s : State), s.begun = true → exec (.begin pin m) s = .refused .alreadyBegun)

/-- R43, R244: right after `BEGIN` every offset of the buffer reads its byte of `PAYLOAD_INIT`, whatever that is. -/
def Obligations.BeginFillsBufferWithInitialBytes : Prop :=
  ∀ (pin : Nat) (m : Mode) (s t : State), exec (.begin pin m) s = .next t →
    Memory.wf t.payload = true ∧ ∀ k, k < 23 → t.byteAt k = Config.payloadInit k

/-! ### The receiver's operations -/

/-- R131: `RX_START`, all it writes, and when a rising edge is it. -/
def Obligations.RisingEdgeStartsWord : Prop :=
  (∀ s : State, s.begun = true → s.rxEn = true → s.busy = false →
    exec .rxStart s = .next
      { s with tickCnt := 0, tickReady := false, bi := 1, acc := 0x00#8, par := 0xFF#8, busy := true }) ∧
  (∀ sel : Selection, sel.begun = true → sel.rxEn = true → sel.busy = false →
    decode sel (.lineEvent 0b01#2) = .ok .rxStart) ∧
  (∀ sel : Selection, (sel.begun = false ∨ sel.rxEn = false ∨ sel.busy = true) →
    decode sel (.lineEvent 0b01#2) = .ok (.edgeIgn .rise))

/-- R132: `RX_DATA`, all it writes, and when a tick is it. -/
def Obligations.DataSampleEffect : Prop :=
  (∀ (lvl : Level) (s : State), s.busy = true → 1 ≤ s.bi.toNat → s.bi.toNat ≤ 8 →
    exec (.rxData lvl) s = .next
      { s with
        tickReady := false,
        acc := if lvl = .H then s.acc ||| BitVec.twoPow 8 (s.bi.toNat - 1) else s.acc,
        par := if lvl = .H then ~~~s.par else s.par,
        bi := s.bi + 1 }) ∧
  (∀ (sel : Selection) (c : BitVec 1), sel.busy = true → 1 ≤ sel.bi.toNat → sel.bi.toNat ≤ 8 →
    decode sel (.lineCell c) = .ok (.rxData (if c = 1#1 then .H else .L)))

/-- R133: `RX_PARITY`: the check, the parity error, the dispatch by `wi`, and the end of the word on every path. The
next state is idle; that `acc`, `par` and `bi` keep their values in it is the model's choice (log 6), which R28 allows. -/
def Obligations.ParityCheckAndDispatch : Prop :=
  (∀ (lvl : Level) (s : State), s.busy = true → s.bi.toNat = 9 →
    (¬ (s.par ≠ 0x00#8 ↔ lvl = .H) →
      exec (.rxParity lvl) s = .next { s with tickReady := false, wi := 0, edgePend := false, busy := false }) ∧
    ((s.par ≠ 0x00#8 ↔ lvl = .H) →
      exec (.rxParity lvl) s =
        Result.andThen
          (exec (if s.wi = 0 then .wSentinel (~~~s.acc) else if s.wi = 24 then .wTerm (~~~s.acc) else .wStore (~~~s.acc))
            { s with tickReady := false })
          fun t => .next { t with edgePend := false, busy := false })) ∧
  (∀ (sel : Selection) (c : BitVec 1), sel.busy = true → sel.bi.toNat = 9 →
    decode sel (.lineCell c) = .ok (.rxParity (if c = 1#1 then .H else .L)))

/-- R133 to R136: with good parity `RX_PARITY` answers a next state at every word index 0..24, and which one. The next
state is idle; that `acc`, `par` and `bi` keep their values in it is the model's choice (log 6), which R28 allows. -/
def Obligations.GoodParityCompletes : Prop :=
  ∀ (lvl : Level) (s : State), s.busy = true → s.bi.toNat = 9 → (s.par ≠ 0x00#8 ↔ lvl = .H) →
    (s.wi = 0 →
      exec (.rxParity lvl) s = .next
        { s with
          tickReady := false, edgePend := false, busy := false,
          wi := if ~~~s.acc = 0x0F#8 then 1 else 0 }) ∧
    (1 ≤ s.wi.toNat → s.wi.toNat ≤ 23 →
      exec (.rxParity lvl) s = .next
        { s with
          tickReady := false, edgePend := false, busy := false, wi := s.wi + 1,
          payload := Memory.write (s.wi.toNat - 1) (~~~s.acc) s.payload }) ∧
    (s.wi = 24 →
      exec (.rxParity lvl) s = .next
        { s with
          tickReady := false, edgePend := false, busy := false, wi := 0,
          rxEn := if s.mode = .onDemand then false else s.rxEn })

/-- R134: `W_SENTINEL` at `wi` = 0: 0x0F moves on to word 1, anything else is a framing error; nothing is stored. -/
def Obligations.SentinelWordEffect : Prop :=
  ∀ (d : Byte) (s : State), s.wi = 0 →
    exec (.wSentinel d) s = .next { s with wi := if d = 0x0F#8 then 1 else 0 }

/-- R135: `W_STORE` at `wi` in 1..23 stores the byte at offset `wi` - 1, whole, moves on by one, and changes no other
byte and no other item. -/
def Obligations.PayloadWordEffect : Prop :=
  ∀ (d : Byte) (s : State), 1 ≤ s.wi.toNat → s.wi.toNat ≤ 23 →
    ∃ t, exec (.wStore d) s = .next t ∧ t.wi = s.wi + 1 ∧
      (∀ a, t.byteAt a = if a = s.wi.toNat - 1 then d else s.byteAt a) ∧
      { t with payload := s.payload, wi := s.wi } = s

/-- R136: `W_TERM` at `wi` = 24 ends the frame: word index 0, path closed in on-demand mode only, byte not looked at. -/
def Obligations.TerminatorWordEffect : Prop :=
  ∀ (d : Byte) (s : State), s.wi = 24 →
    exec (.wTerm d) s = .next { s with wi := 0, rxEn := if s.mode = .onDemand then false else s.rxEn }

/-- R138: a falling edge clears the edge latch and changes nothing else, in every state. -/
def Obligations.FallingEdgeIgnored : Prop :=
  (∀ s : State, exec (.edgeIgn .fall) s = .next { s with edgePend := false }) ∧
  (∀ sel : Selection, decode sel (.lineEvent 0b10#2) = .ok (.edgeIgn .fall))

/-- R139: a rising edge that cannot start a word changes nothing. -/
def Obligations.UnusableRisingEdgeIgnored : Prop :=
  ∀ s : State, (s.begun = false ∨ s.rxEn = false ∨ s.busy = true) → exec (.edgeIgn .rise) s = .next s

/-- R140: a tick while idle changes nothing. -/
def Obligations.IdleTickIgnored : Prop :=
  (∀ (lvl : Level) (s : State), s.busy = false → exec (.tickIgn lvl) s = .next s) ∧
  (∀ (sel : Selection) (c : BitVec 1), sel.busy = false →
    decode sel (.lineCell c) = .ok (.tickIgn (if c = 1#1 then .H else .L)))

/-! ### The extractor's operations -/

/-- R162: `GETCHRAW` of a proportional channel: the layout entry's three bytes, shifted, joined and cut to 11 bits; the
guard is down again; nothing else changes. -/
def Obligations.ProportionalChannelRead : Prop :=
  ∀ (c : Nat) (e : LayoutEntry) (s : State), s.CommandReady → 1 ≤ c → c ≤ 16 → layoutTable[c - 1]? = some e →
    exec (.getchraw c) s = .next
      { s with
        guard := false,
        returned := s.returned ++ [.value (BitVec.ofNat 16
          (((s.byteAt e.off).toNat >>> e.s1 ||| (s.byteAt (e.off + 1)).toNat <<< e.s2 |||
            (match e.s3 with | none => 0 | some n => (s.byteAt (e.off + 2)).toNat <<< n)) % 2048))] }

/-- R163: channels 17 and 18 read 1812 or 173 by bits 0 and 1 of the flags byte. -/
def Obligations.BinaryChannelRead : Prop :=
  ∀ s : State, s.CommandReady →
    exec (.getchraw 17) s = .next
      { s with returned := s.returned ++ [.value (if (s.byteAt 22).getLsbD 0 then 1812#16 else 173#16)] } ∧
    exec (.getchraw 18) s = .next
      { s with returned := s.returned ++ [.value (if (s.byteAt 22).getLsbD 1 then 1812#16 else 173#16)] }

/-- R164: any other index returns 0 and reads nothing. R166: `GETCH` then returns 880. -/
def Obligations.InvalidIndexReadsZero : Prop :=
  ∀ (idx : Nat) (s : State), s.CommandReady → (idx = 0 ∨ 19 ≤ idx) →
    exec (.getchraw idx) s = .next { s with returned := s.returned ++ [.value 0#16] } ∧
    exec (.getch idx) s = .next { s with returned := s.returned ++ [.value 880#16] }

/-- R166: `GETCH` returns raw * 5 / 8 + 880 of what `GETCHRAW` returns at that state, for every index. R103: the ranges.
At a step boundary the guard is down, which is a premise. -/
def Obligations.ScaledChannelRead : Prop :=
  ∀ (idx : Nat) (s : State), s.guard = false → s.CommandReady →
    ∃ raw : BitVec 16, raw.toNat ≤ 2047 ∧
      exec (.getchraw idx) s = .next { s with returned := s.returned ++ [.value raw] } ∧
      exec (.getch idx) s = .next
        { s with returned := s.returned ++ [.value (BitVec.ofNat 16 (raw.toNat * 5 / 8 + 880))] } ∧
      880 ≤ raw.toNat * 5 / 8 + 880 ∧ raw.toNat * 5 / 8 + 880 ≤ 2159

/-- R166: the scale is non-decreasing, with the source's two examples. -/
def Obligations.ScaleIsMonotone : Prop :=
  (∀ a b : BitVec 16, a.toNat ≤ b.toNat → b.toNat ≤ 2047 → (rescale a).toNat ≤ (rescale b).toNat) ∧
  rescale 173#16 = 988#16 ∧ rescale 1812#16 = 2012#16

/-- R167: `SIGLOSS` returns bit 2 of the flags byte and changes nothing. -/
def Obligations.SignalLossRead : Prop :=
  ∀ s : State, s.CommandReady →
    exec .sigloss s = .next { s with returned := s.returned ++ [.bit ((s.byteAt 22).getLsbD 2)] }

/-- R168: `FAILSAFE` returns bit 3 of the flags byte and changes nothing. -/
def Obligations.FailsafeRead : Prop :=
  ∀ s : State, s.CommandReady →
    exec .failsafe s = .next { s with returned := s.returned ++ [.bit ((s.byteAt 22).getLsbD 3)] }

/-- R165: `GETCHRAW c` returns bits 11(c - 1) + 10 down to 11(c - 1) of the 176-bit string. -/
def Obligations.ExtractionReadsBitString : Prop :=
  ∀ (c : Nat) (s : State), s.guard = false → s.CommandReady → 1 ≤ c → c ≤ 16 →
    ∃ v : BitVec 16,
      exec (.getchraw c) s = .next { s with returned := s.returned ++ [.value v] } ∧
      ∀ j, v.getLsbD j = (decide (j < 11) && s.stringBit (11 * (c - 1) + j))

/-- R165, R97: packing sixteen values and reading any channel gives that channel's value back, whatever the others. -/
def Obligations.PackedChannelsRoundTrip : Prop :=
  ∀ (ch : Nat → BitVec 11) (s : State), s.guard = false → s.CommandReady →
    (∀ n, n < 176 → s.stringBit n = (ch (n / 11 + 1)).getLsbD (n % 11)) →
    ∀ c, 1 ≤ c → c ≤ 16 →
      exec (.getchraw c) s = .next { s with returned := s.returned ++ [.value ((ch c).setWidth 16)] }

/-- R104: the sixteen entries of the layout table are those the packing gives. -/
def Obligations.LayoutTableFollowsPacking : Prop :=
  layoutTable.length = 16 ∧
  ∀ c, 1 ≤ c → c ≤ 16 →
    layoutTable[c - 1]? = some
      { off := 11 * (c - 1) / 8, s1 := 11 * (c - 1) % 8, s2 := 8 - 11 * (c - 1) % 8,
        s3 := if 6 ≤ 11 * (c - 1) % 8 then some (16 - 11 * (c - 1) % 8) else none }

/-- R170: each of the four reads completes, changes nothing but the results given, and its result is a function of its
operand and the buffer. -/
def Obligations.ReadsDependOnBufferAlone : Prop :=
  ∀ (i : Instr) (s s' : State), isRead i = true → s.guard = false → s'.guard = false → s.CommandReady →
    s'.CommandReady → (∀ k, k < 23 → s.byteAt k = s'.byteAt k) →
    ∃ r, exec i s = .next { s with returned := s.returned ++ [r] } ∧
      exec i s' = .next { s' with returned := s'.returned ++ [r] }

/-- R31: no operation's result depends on bits 7:4 of the flags byte. -/
def Obligations.ReservedFlagBitsUnread : Prop :=
  ∀ (i : Instr) (s : State) (g : Byte), isRead i = true → s.guard = false → s.CommandReady →
    (∀ k, k < 4 → g.getLsbD k = (s.byteAt 22).getLsbD k) →
    ∃ r, exec i s = .next { s with returned := s.returned ++ [r] } ∧
      exec i (s.putByte 22 g) = .next { s.putByte 22 g with returned := s.returned ++ [r] }

/-! ### The control operations -/

/-- R182: in continuous mode `WAITFRAME` returns success at once and changes nothing. -/
def Obligations.ContinuousWaitReturnsAtOnce : Prop :=
  ∀ (timeout now : Ms) (s : State), s.CommandReady → s.mode = .continuous →
    exec (.waitframe timeout now) s = .next { s with returned := s.returned ++ [.bit true] }

/-- R183: in on-demand mode `WAITFRAME` opens the path and notes the time; it gives no result yet. -/
def Obligations.OnDemandWaitArms : Prop :=
  ∀ (timeout now : Ms) (s : State), s.CommandReady → s.mode = .onDemand →
    exec (.waitframe timeout now) s = .next
      { s with edgePend := false, rxEn := true, wf := some { t0 := now, timeout := timeout } }

/-- R184: a poll: success when the path is closed, else a timeout when the elapsed time exceeds it, which leaves the
path open, else no change. The width of the clock is the free value Config.wMs. -/
def Obligations.PollEndsOrGoesOn : Prop :=
  ∀ (now : Ms) (wt : Wait) (s : State), s.begun = true → s.busy = false → s.wf = some wt →
    (s.rxEn = false →
      exec (.wfPoll now) s = .next { s with wf := none, returned := s.returned ++ [.bit true] }) ∧
    (s.rxEn = true → wt.timeout.toNat < (now.toNat + 2 ^ Config.wMs - wt.t0.toNat) % 2 ^ Config.wMs →
      exec (.wfPoll now) s = .next { s with wf := none, returned := s.returned ++ [.bit false] }) ∧
    (s.rxEn = true → ¬ wt.timeout.toNat < (now.toNat + 2 ^ Config.wMs - wt.t0.toNat) % 2 ^ Config.wMs →
      exec (.wfPoll now) s = .next s)

/-- R185: elapsed time is right across the wrap of the clock, at every width of it. -/
def Obligations.ElapsedTimeWraps : Prop :=
  ∀ (w : Nat) (t0 now d : BitVec w),
    (elapsed t0 now).toNat = (now.toNat + 2 ^ w - t0.toNat) % 2 ^ w ∧ elapsed t0 (t0 + d) = d

/-- R188: a command word R101 does not list is refused by the step that meets it; so is a listed command out of
sequence: before `BEGIN`, `BEGIN` twice, any command while a wait is in progress. -/
def Obligations.OutOfSequenceCommandsRefused : Prop :=
  (∀ (cw : BitVec 16) (pin : Nat) (timeout now : Ms) (rest : List Packet) (s : State), s.busy = false →
    s.inputs = .command cw pin timeout now :: rest →
    ¬ (cw &&& 0xFFFE#16 = 0x0000#16 ∨ cw = 0x1000#16 ∨ cw &&& 0xFF00#16 = 0x2000#16 ∨
      cw &&& 0xFF00#16 = 0x3000#16 ∨ cw = 0x4000#16 ∨ cw = 0x5000#16) →
    ∃ r, step s = .refused (.illegalInput r)) ∧
  (∀ (i : Instr) (s : State), isCommand i = true → (∀ pin m, i ≠ .begin pin m) → s.begun = false →
    exec i s = .refused .notBegun) ∧
  (∀ (pin : Nat) (m : Mode) (s : State), s.begun = true → exec (.begin pin m) s = .refused .alreadyBegun) ∧
  (∀ (i : Instr) (s : State), isCommand i = true → s.begun = true → s.busy = false → s.wf.isSome = true →
    exec i s = .refused (match i with | .begin _ _ => .alreadyBegun | _ => .waitInProgress))

/-! ### Encodings -/

/-- Decoding the packet of a well-formed operation gives it back, in every state that selects it, with every operand. -/
def Obligations.DecodeInvertsEncode : Prop :=
  ∀ (sel : Selection) (i : Instr), i.wellFormed = true → sel.selects i = true → decode sel (encode i) = .ok i

/-- What the decoder answers is well-formed, is the operation the state selects, and is encoded by that packet, up to
the stop cells and the operands its command does not take. -/
def Obligations.DecodeGivesSelectedOperation : Prop :=
  ∀ (sel : Selection) (p : Packet) (i : Instr), decode sel p = .ok i →
    i.wellFormed = true ∧ sel.selects i = true ∧ encode i = p.canonical

/-- R101: a command word is legal exactly when it matches one of the six rows. -/
def Obligations.LegalCommandWordsAreTheTable : Prop :=
  ∀ (cw : BitVec 16) (pin : Nat) (timeout now : Ms),
    (∃ i, decodeCommand cw pin timeout now = .ok i) ↔
      (cw &&& 0xFFFE#16 = 0x0000#16 ∨ cw &&& 0xFFFF#16 = 0x1000#16 ∨ cw &&& 0xFF00#16 = 0x2000#16 ∨
        cw &&& 0xFF00#16 = 0x3000#16 ∨ cw &&& 0xFFFF#16 = 0x4000#16 ∨ cw &&& 0xFFFF#16 = 0x5000#16)

/-- Words written out from R91 and R101: the sentinel word, a data word, a terminator, and command words. -/
def Obligations.SampleWordsDecode : Prop :=
  decode { Selection.afterBegin with wi := 0 } (.lineWord 0b100001111100#12) = .ok (.wSentinel 0x0F#8) ∧
  decode { Selection.afterBegin with wi := 5 } (.lineWord 0b111000010000#12) = .ok (.wStore 0xBC#8) ∧
  decode { Selection.afterBegin with wi := 24 } (.lineWord 0b111111111100#12) = .ok (.wTerm 0x00#8) ∧
  decode Selection.afterBegin (.command 0x0001#16 3 0 0) = .ok (.begin 3 .onDemand) ∧
  decode Selection.afterBegin (.command 0x1000#16 0 100 5000) = .ok (.waitframe 100 5000) ∧
  decode Selection.afterBegin (.command 0x2013#16 0 0 0) = .ok (.getchraw 19) ∧
  decode Selection.afterBegin (.command 0x3001#16 0 0 0) = .ok (.getch 1)

/-- R143: a word built from a byte is consistent and decodes to it; inverting one sampled cell breaks the parity;
inverting two keeps it and decodes to another byte. -/
def Obligations.ParityDetectsSingleCellErrors : Prop :=
  ∀ v : Byte,
    oddHigh (samples (wordCells v)) = true ∧ wordByte (wordCells v) = v ∧
    (∀ b, 1 ≤ b → b ≤ 9 → oddHigh (samples (invertCell (wordCells v) b)) = false) ∧
    (∀ a b, 1 ≤ a → a < b → b ≤ 9 →
      oddHigh (samples (invertCell (invertCell (wordCells v) a) b)) = true ∧
      wordByte (invertCell (invertCell (wordCells v) a) b) ≠ v)

/-! ### Steps -/

/-- The next input is served and the decoded operation is executed; whole words have statements of their own. What the
step adds around exec is written out, and is the model's reading of R44 and R45: that `edge_pend` is latched and
`tick_ready` set before the operation (log 8), and that `tick_cnt` takes a free value at every event (log 7). -/
def Obligations.StepRunsDecodedOperation : Prop :=
  ∀ (s : State) (p : Packet) (rest : List Packet) (i : Instr), s.inputs = p :: rest → held s.busy s.guard p = false →
    p.format ≠ .lineWord → decode s.selection p = .ok i →
    step s = exec i
      { s with
        inputs := rest,
        edgePend := s.edgePend || (isEdgePacket p && s.begun && s.rxEn),
        tickReady := s.tickReady || isTickPacket p,
        tickCnt := Config.tickCount s.drawn,
        drawn := s.drawn + 1 }

/-- R73, R133: a whole word that the state decodes to a word operation runs that operation, on the state its first nine
events leave, and then ends the word. -/
def Obligations.WordStepRunsDecodedOperation : Prop :=
  ∀ (s : State) (cells : BitVec 12) (rest : List Packet) (i : Instr), s.inputs = .lineWord cells :: rest →
    s.guard = false → decode s.selection (.lineWord cells) = .ok i →
    ∃ u, performAll ((wordEvents cells).take 9) (s.withInputs rest) = .next u ∧
      u.busy = true ∧ u.bi = 9 ∧ u.acc = ~~~ wordByte cells ∧ u.wi = s.wi ∧ u.payload = s.payload ∧
      step s = Result.andThen (exec i (u.deliver (.lineCell (BitVec.ofBool (cellLevel cells 9).toBool))).clearTick)
        fun t => .next t.leaveWord

/-- R143: what the rising edge and the eight data samples leave in `acc` and `par`, and when tick 9 is good. -/
def Obligations.SamplesAccumulate : Prop :=
  ∀ (s : State) (cells : BitVec 12), s.WordReady →
    ∃ u, performAll ((wordEvents cells).take 9) s = .next u ∧ u.busy = true ∧ u.bi = 9 ∧
      (∀ b, b < 8 → u.acc.getLsbD b = (cellLevel cells (b + 1)).toBool) ∧
      u.par = (if oddHigh ((samples cells).take 8) then 0x00#8 else 0xFF#8) ∧
      (parityOk u.par (cellLevel cells 9) = oddHigh (samples cells))

/-- R142: the transitions of `wi` by whole words, complete, with what each word changes and leaves. -/
def Obligations.WordStepFollowsTransitionTable : Prop :=
  ∀ (s : State) (cells : BitVec 12) (rest : List Packet), s.WordReady → s.guard = false → s.wi.toNat ≤ 24 →
    s.inputs = .lineWord cells :: rest → cellLevel cells 0 = .H →
    ∃ t, step s = .next t ∧
      t.inputs = rest ∧ t.busy = false ∧ t.begun = true ∧ t.mode = s.mode ∧ t.wf = s.wf ∧ t.guard = false ∧
      t.returned = s.returned ∧ t.watchedPin = s.watchedPin ∧ t.tickPeriod = s.tickPeriod ∧
      (oddHigh (samples cells) = false → t.wi = 0 ∧ t.rxEn = true ∧ t.payload = s.payload) ∧
      (oddHigh (samples cells) = true →
        (s.wi.toNat = 0 →
          t.wi = (if wordByte cells = 0x0F#8 then 1 else 0) ∧ t.rxEn = true ∧ t.payload = s.payload) ∧
        (1 ≤ s.wi.toNat → s.wi.toNat ≤ 23 →
          t.wi.toNat = s.wi.toNat + 1 ∧ t.rxEn = true ∧
          ∀ a, t.byteAt a = if a = s.wi.toNat - 1 then wordByte cells else s.byteAt a) ∧
        (s.wi.toNat = 24 →
          t.wi = 0 ∧ t.rxEn = (s.mode == .continuous) ∧ t.payload = s.payload))

/-- R73: the ten events of a word, one step each, lead where the whole word taken as one step leads. -/
def Obligations.WordStepEqualsTenEventSteps : Prop :=
  ∀ (s : State) (cells : BitVec 12) (rest : List Packet), s.WordReady → s.guard = false → s.wi.toNat ≤ 24 →
    cellLevel cells 0 = .H →
    Sys2Proof.core.run 10 (s.withInputs (wordEvents cells ++ rest)) =
      Sys2Proof.core.run 1 (s.withInputs (.lineWord cells :: rest))

/-- R73, R213: a command or poll that arrives after the start edge waits out the word: the run is that in which it
arrives after tick 9. -/
def Obligations.LateReadWaitsOutTheWord : Prop :=
  ∀ (s : State) (cells : BitVec 12) (p : Packet) (rest : List Packet), s.WordReady → s.guard = false →
    s.wi.toNat ≤ 24 → isMainPacket p = true →
    Sys2Proof.core.run 11 (s.withInputs (.lineEvent 0b01#2 :: p :: ((wordEvents cells).tail ++ rest))) =
      Sys2Proof.core.run 11 (s.withInputs (wordEvents cells ++ p :: rest))

/-- R73: no step taken while the receiver is busy is a step of CX. -/
def Obligations.BusyReceiverExcludesConsumer : Prop :=
  ∀ s t : State, s.busy = true → step s = .next t →
    t.returned = s.returned ∧ t.wf = s.wf ∧ t.mode = s.mode ∧ t.begun = s.begun ∧ t.guard = s.guard ∧
    t.inputs.filter isMainPacket = s.inputs.filter isMainPacket

/-- R256: a busy receiver without a line input is stuck, whatever commands and polls are pending. -/
def Obligations.TickStallIsStuck : Prop :=
  ∀ s : State, s.busy = true → (∀ p ∈ s.inputs, isMainPacket p = true) → step s = .fault .tickStall

/-- R265: a run whose inputs are used up: stuck while busy, a wait that never returned, or ended. -/
def Obligations.EndOfInputs : Prop :=
  ∀ s : State, s.inputs = [] →
    (s.busy = true → step s = .fault .tickStall) ∧
    (s.busy = false → s.wf.isSome = true → step s = .fault .waitUnfinished) ∧
    (s.busy = false → s.wf = none → step s = .fault .inputsUsedUp)

/-! ### The whole machine -/

/-- The invariant holds at power-on. -/
def Obligations.ResetMeetsInvariant : Prop := State.reset.Inv

/-- Every step keeps the invariant: the word index stays in 0..24, `par` counts the high samples, the path is open in
continuous mode, the guard is down, the buffer is in canonical form. What it says of `edge_pend` and `tick_ready`
between events (R44, R45) rests on when the platform sets them (log 8). -/
def Obligations.StepKeepsInvariant : Prop :=
  ∀ s t : State, s.Inv → step s = .next t → t.Inv

/-- R207, R188, R106, R265: from a state that meets the invariant, a step stops only where the spec gives no step, and
each stop has its condition. A refusal: the input served is no input of the block; a command or poll before `BEGIN`;
`BEGIN` again; another command in a wait; a poll without a wait (R184; its name and its place before `BEGIN` are log 16's). A
fault: the stuck ends of a run (log 17). -/
def Obligations.StepStopsOnlyWhereSpecGivesNoStep : Prop :=
  ∀ s : State, s.Inv →
    (∀ r, step s = .refused r → ∃ p rest, takeInput s.busy s.guard s.inputs = some (p, rest) ∧
      ((∃ e, r = .illegalInput e ∧ decode s.selection p = .error e ∧
          (e = .noTransition ∨ e = .noStartEdge ∨ e = .illegalOpcode ∨ e = .reservedBits ∨ e = .badArgument)) ∨
        (∃ i, decode s.selection p = .ok i ∧
          ((r = .notBegun ∧ s.begun = false ∧
              ((isCommand i = true ∧ ∀ pin m, i ≠ .begin pin m) ∨ ∃ now, i = .wfPoll now)) ∨
            (r = .alreadyBegun ∧ s.begun = true ∧ ∃ pin m, i = .begin pin m) ∨
            (r = .waitInProgress ∧ s.begun = true ∧ s.wf.isSome = true ∧ isCommand i = true ∧
              ∀ pin m, i ≠ .begin pin m) ∨
            (r = .noWait ∧ s.begun = true ∧ s.wf = none ∧ ∃ now, i = .wfPoll now))))) ∧
    (∀ f, step s = .fault f →
      (f = .tickStall ∧ s.busy = true ∧ ∀ p ∈ s.inputs, isMainPacket p = true) ∨
      (f = .waitUnfinished ∧ s.busy = false ∧ s.inputs = [] ∧ s.wf.isSome = true) ∨
      (f = .inputsUsedUp ∧ s.busy = false ∧ s.inputs = [] ∧ s.wf = none))

/-- R187: every write of `rx_en`, in one place: `BEGIN`, `WF_ARM`, and `W_TERM`, which a ninth sample with good parity
performs. -/
def Obligations.PathEnableWriters : Prop :=
  ∀ (i : Instr) (s t : State), exec i s = .next t → t.rxEn ≠ s.rxEn →
    (∃ pin m, i = .begin pin m ∧ t.rxEn = (m == .continuous)) ∨
    (∃ timeout now, i = .waitframe timeout now ∧ s.mode = .onDemand ∧ t.rxEn = true) ∨
    (((∃ d, i = .wTerm d) ∨ (∃ lvl, i = .rxParity lvl ∧ parityOk s.par lvl = true)) ∧ s.wi = 24 ∧
      s.mode = .onDemand ∧ t.rxEn = false)

/-- R32 (c), R41: a byte of the buffer changes only by `BEGIN`, or by a payload word with good parity, at its offset. -/
def Obligations.BufferWriters : Prop :=
  ∀ (i : Instr) (s t : State) (a : Nat), exec i s = .next t → t.byteAt a ≠ s.byteAt a →
    (∃ pin m, i = .begin pin m) ∨
    (1 ≤ s.wi.toNat ∧ s.wi.toNat ≤ 23 ∧ a = s.wi.toNat - 1 ∧
      ((∃ d, i = .wStore d ∧ t.byteAt a = d) ∨
        (∃ lvl, i = .rxParity lvl ∧ parityOk s.par lvl = true ∧ t.byteAt a = ~~~s.acc)))

/-- R25, R26: no operation but `BEGIN` and the receiver's ninth sample moves the word index, and `wi` moves only to 0 or
on by one. -/
def Obligations.WordIndexWriters : Prop :=
  ∀ (i : Instr) (s t : State), exec i s = .next t → t.wi ≠ s.wi →
    ((∃ pin m, i = .begin pin m) ∨ (∃ lvl, i = .rxParity lvl) ∨ (∃ d, i = .wSentinel d) ∨ (∃ d, i = .wStore d) ∨
      (∃ d, i = .wTerm d)) ∧
    (t.wi = 0 ∨ t.wi = s.wi + 1)

/-- R34, R37: once begun, the block stays begun, and no step changes the mode or the pin. -/
def Obligations.ModeFixedAfterBegin : Prop :=
  ∀ s t : State, s.begun = true → step s = .next t →
    t.begun = true ∧ t.mode = s.mode ∧ t.watchedPin = s.watchedPin ∧ t.tickPeriod = s.tickPeriod

/-- R80: while the path is closed and the receiver idle no step changes the buffer, and only a `WAITFRAME` opens the
path again, in on-demand mode. -/
def Obligations.ClosedPathKeepsBuffer : Prop :=
  ∀ s t : State, s.begun = true → s.rxEn = false → s.busy = false → step s = .next t →
    t.payload = s.payload ∧ t.busy = false ∧ t.wi = s.wi ∧
    (t.rxEn = true → s.mode = .onDemand ∧ s.wf = none ∧ t.wf.isSome = true)

/-! ### Frames on the line -/

/-- R74: after the first k + 1 words of a frame the buffer holds k new bytes and the old ones above, and the receiver is
idle, so that CX may read the mixture. -/
def Obligations.PartialFrameIsVisible : Prop :=
  ∀ (s : State) (v : Nat → Byte) (k : Nat) (rest : List Packet), s.WordReady → s.guard = false → s.wi = 0 →
    v 0 = 0x0F#8 → k ≤ 23 → s.inputs = (List.range (k + 1)).map (fun n => goodWord (v n)) ++ rest →
    ∃ t, Sys2Proof.core.run (k + 1) s = .next t ∧ t.inputs = rest ∧ t.busy = false ∧ t.wi.toNat = k + 1 ∧
      t.rxEn = true ∧ t.wf = s.wf ∧ t.returned = s.returned ∧
      ∀ a, t.byteAt a = if a < k then v (a + 1) else s.byteAt a

/-- R145: 25 consecutive good words with the sentinel first fill the buffer, end at word index 0, and close the path in
on-demand mode. -/
def Obligations.GoodFrameFillsBuffer : Prop :=
  ∀ (s : State) (v : Nat → Byte) (rest : List Packet), s.WordReady → s.guard = false → s.wi = 0 →
    v 0 = 0x0F#8 → s.inputs = (List.range 25).map (fun n => goodWord (v n)) ++ rest →
    ∃ t, Sys2Proof.core.run 25 s = .next t ∧ t.inputs = rest ∧ t.busy = false ∧ t.wi = 0 ∧
      t.rxEn = (s.mode == .continuous) ∧ (∀ k, k < 23 → t.byteAt k = v (k + 1))

/-- R145, R144: when word j is the first to fail, the word index is 0 after it, the bytes stored before it stay, and it
and what lies above are untouched. -/
def Obligations.FailedWordAbandonsFrame : Prop :=
  ∀ (s : State) (v : Nat → Byte) (j : Nat) (bad : BitVec 12) (rest : List Packet), s.WordReady → s.guard = false →
    s.wi = 0 → (0 < j → v 0 = 0x0F#8) → j ≤ 24 → cellLevel bad 0 = .H →
    (oddHigh (samples bad) = false ∨ j = 0 ∧ wordByte bad ≠ 0x0F#8) →
    s.inputs = (List.range j).map (fun n => goodWord (v n)) ++ .lineWord bad :: rest →
    ∃ t, Sys2Proof.core.run (j + 1) s = .next t ∧ t.inputs = rest ∧ t.busy = false ∧ t.wi = 0 ∧ t.rxEn = true ∧
      ∀ a, t.byteAt a = if a < j - 1 then v (a + 1) else s.byteAt a
end

