-- ==== Sys2Proof/Laws/State.lean ====
section
/-! SUPPORT. One lemma per field per update of the state, each true by rfl (a turn of the wait loop by
cases), so that no later proof unfolds an update. -/

namespace Sys2Proof.Machine

variable (s : State)

@[simp] theorem State.enterWord_begun : (s.enterWord).begun = s.begun := rfl
@[simp] theorem State.enterWord_mode : (s.enterWord).mode = s.mode := rfl
@[simp] theorem State.enterWord_rxEn : (s.enterWord).rxEn = s.rxEn := rfl
@[simp] theorem State.enterWord_wi : (s.enterWord).wi = s.wi := rfl
@[simp] theorem State.enterWord_bi : (s.enterWord).bi = 1 := rfl
@[simp] theorem State.enterWord_acc : (s.enterWord).acc = 0x00#8 := rfl
@[simp] theorem State.enterWord_par : (s.enterWord).par = Config.parInit := rfl
@[simp] theorem State.enterWord_busy : (s.enterWord).busy = true := rfl
@[simp] theorem State.enterWord_payload : (s.enterWord).payload = s.payload := rfl
@[simp] theorem State.enterWord_edgePend : (s.enterWord).edgePend = s.edgePend := rfl
@[simp] theorem State.enterWord_tickCnt : (s.enterWord).tickCnt = 0 := rfl
@[simp] theorem State.enterWord_tickReady : (s.enterWord).tickReady = false := rfl
@[simp] theorem State.enterWord_guard : (s.enterWord).guard = s.guard := rfl
@[simp] theorem State.enterWord_wf : (s.enterWord).wf = s.wf := rfl
@[simp] theorem State.enterWord_watchedPin : (s.enterWord).watchedPin = s.watchedPin := rfl
@[simp] theorem State.enterWord_tickPeriod : (s.enterWord).tickPeriod = s.tickPeriod := rfl
@[simp] theorem State.enterWord_drawn : (s.enterWord).drawn = s.drawn := rfl
@[simp] theorem State.enterWord_inputs : (s.enterWord).inputs = s.inputs := rfl
@[simp] theorem State.enterWord_returned : (s.enterWord).returned = s.returned := rfl
@[simp] theorem State.enterWord_byteAt (a : Nat) : (s.enterWord).byteAt a = s.byteAt a := rfl

@[simp] theorem State.leaveWord_begun : (s.leaveWord).begun = s.begun := rfl
@[simp] theorem State.leaveWord_mode : (s.leaveWord).mode = s.mode := rfl
@[simp] theorem State.leaveWord_rxEn : (s.leaveWord).rxEn = s.rxEn := rfl
@[simp] theorem State.leaveWord_wi : (s.leaveWord).wi = s.wi := rfl
@[simp] theorem State.leaveWord_bi : (s.leaveWord).bi = s.bi := rfl
@[simp] theorem State.leaveWord_acc : (s.leaveWord).acc = s.acc := rfl
@[simp] theorem State.leaveWord_par : (s.leaveWord).par = s.par := rfl
@[simp] theorem State.leaveWord_busy : (s.leaveWord).busy = false := rfl
@[simp] theorem State.leaveWord_payload : (s.leaveWord).payload = s.payload := rfl
@[simp] theorem State.leaveWord_edgePend : (s.leaveWord).edgePend = false := rfl
@[simp] theorem State.leaveWord_tickCnt : (s.leaveWord).tickCnt = s.tickCnt := rfl
@[simp] theorem State.leaveWord_tickReady : (s.leaveWord).tickReady = s.tickReady := rfl
@[simp] theorem State.leaveWord_guard : (s.leaveWord).guard = s.guard := rfl
@[simp] theorem State.leaveWord_wf : (s.leaveWord).wf = s.wf := rfl
@[simp] theorem State.leaveWord_watchedPin : (s.leaveWord).watchedPin = s.watchedPin := rfl
@[simp] theorem State.leaveWord_tickPeriod : (s.leaveWord).tickPeriod = s.tickPeriod := rfl
@[simp] theorem State.leaveWord_drawn : (s.leaveWord).drawn = s.drawn := rfl
@[simp] theorem State.leaveWord_inputs : (s.leaveWord).inputs = s.inputs := rfl
@[simp] theorem State.leaveWord_returned : (s.leaveWord).returned = s.returned := rfl
@[simp] theorem State.leaveWord_byteAt (a : Nat) : (s.leaveWord).byteAt a = s.byteAt a := rfl

@[simp] theorem State.clearTick_begun : (s.clearTick).begun = s.begun := rfl
@[simp] theorem State.clearTick_mode : (s.clearTick).mode = s.mode := rfl
@[simp] theorem State.clearTick_rxEn : (s.clearTick).rxEn = s.rxEn := rfl
@[simp] theorem State.clearTick_wi : (s.clearTick).wi = s.wi := rfl
@[simp] theorem State.clearTick_bi : (s.clearTick).bi = s.bi := rfl
@[simp] theorem State.clearTick_acc : (s.clearTick).acc = s.acc := rfl
@[simp] theorem State.clearTick_par : (s.clearTick).par = s.par := rfl
@[simp] theorem State.clearTick_busy : (s.clearTick).busy = s.busy := rfl
@[simp] theorem State.clearTick_payload : (s.clearTick).payload = s.payload := rfl
@[simp] theorem State.clearTick_edgePend : (s.clearTick).edgePend = s.edgePend := rfl
@[simp] theorem State.clearTick_tickCnt : (s.clearTick).tickCnt = s.tickCnt := rfl
@[simp] theorem State.clearTick_tickReady : (s.clearTick).tickReady = false := rfl
@[simp] theorem State.clearTick_guard : (s.clearTick).guard = s.guard := rfl
@[simp] theorem State.clearTick_wf : (s.clearTick).wf = s.wf := rfl
@[simp] theorem State.clearTick_watchedPin : (s.clearTick).watchedPin = s.watchedPin := rfl
@[simp] theorem State.clearTick_tickPeriod : (s.clearTick).tickPeriod = s.tickPeriod := rfl
@[simp] theorem State.clearTick_drawn : (s.clearTick).drawn = s.drawn := rfl
@[simp] theorem State.clearTick_inputs : (s.clearTick).inputs = s.inputs := rfl
@[simp] theorem State.clearTick_returned : (s.clearTick).returned = s.returned := rfl
@[simp] theorem State.clearTick_selection : (s.clearTick).selection = s.selection := rfl
@[simp] theorem State.clearTick_byteAt (a : Nat) : (s.clearTick).byteAt a = s.byteAt a := rfl

@[simp] theorem State.takeSample_begun (lvl : Level) : (s.takeSample lvl).begun = s.begun := rfl
@[simp] theorem State.takeSample_mode (lvl : Level) : (s.takeSample lvl).mode = s.mode := rfl
@[simp] theorem State.takeSample_rxEn (lvl : Level) : (s.takeSample lvl).rxEn = s.rxEn := rfl
@[simp] theorem State.takeSample_wi (lvl : Level) : (s.takeSample lvl).wi = s.wi := rfl
@[simp] theorem State.takeSample_bi (lvl : Level) : (s.takeSample lvl).bi = s.bi + 1 := rfl
@[simp] theorem State.takeSample_acc (lvl : Level) : (s.takeSample lvl).acc = accAfter s.acc s.bi lvl := rfl
@[simp] theorem State.takeSample_par (lvl : Level) : (s.takeSample lvl).par = parityAfter s.par lvl := rfl
@[simp] theorem State.takeSample_busy (lvl : Level) : (s.takeSample lvl).busy = s.busy := rfl
@[simp] theorem State.takeSample_payload (lvl : Level) : (s.takeSample lvl).payload = s.payload := rfl
@[simp] theorem State.takeSample_edgePend (lvl : Level) : (s.takeSample lvl).edgePend = s.edgePend := rfl
@[simp] theorem State.takeSample_tickCnt (lvl : Level) : (s.takeSample lvl).tickCnt = s.tickCnt := rfl
@[simp] theorem State.takeSample_tickReady (lvl : Level) : (s.takeSample lvl).tickReady = s.tickReady := rfl
@[simp] theorem State.takeSample_guard (lvl : Level) : (s.takeSample lvl).guard = s.guard := rfl
@[simp] theorem State.takeSample_wf (lvl : Level) : (s.takeSample lvl).wf = s.wf := rfl
@[simp] theorem State.takeSample_watchedPin (lvl : Level) : (s.takeSample lvl).watchedPin = s.watchedPin := rfl
@[simp] theorem State.takeSample_tickPeriod (lvl : Level) : (s.takeSample lvl).tickPeriod = s.tickPeriod := rfl
@[simp] theorem State.takeSample_drawn (lvl : Level) : (s.takeSample lvl).drawn = s.drawn := rfl
@[simp] theorem State.takeSample_inputs (lvl : Level) : (s.takeSample lvl).inputs = s.inputs := rfl
@[simp] theorem State.takeSample_returned (lvl : Level) : (s.takeSample lvl).returned = s.returned := rfl
@[simp] theorem State.takeSample_byteAt (lvl : Level) (a : Nat) : (s.takeSample lvl).byteAt a = s.byteAt a := rfl

@[simp] theorem State.setWi_begun (t : BitVec 5) : (s.setWi t).begun = s.begun := rfl
@[simp] theorem State.setWi_mode (t : BitVec 5) : (s.setWi t).mode = s.mode := rfl
@[simp] theorem State.setWi_rxEn (t : BitVec 5) : (s.setWi t).rxEn = s.rxEn := rfl
@[simp] theorem State.setWi_wi (t : BitVec 5) : (s.setWi t).wi = t := rfl
@[simp] theorem State.setWi_bi (t : BitVec 5) : (s.setWi t).bi = s.bi := rfl
@[simp] theorem State.setWi_acc (t : BitVec 5) : (s.setWi t).acc = s.acc := rfl
@[simp] theorem State.setWi_par (t : BitVec 5) : (s.setWi t).par = s.par := rfl
@[simp] theorem State.setWi_busy (t : BitVec 5) : (s.setWi t).busy = s.busy := rfl
@[simp] theorem State.setWi_payload (t : BitVec 5) : (s.setWi t).payload = s.payload := rfl
@[simp] theorem State.setWi_edgePend (t : BitVec 5) : (s.setWi t).edgePend = s.edgePend := rfl
@[simp] theorem State.setWi_tickCnt (t : BitVec 5) : (s.setWi t).tickCnt = s.tickCnt := rfl
@[simp] theorem State.setWi_tickReady (t : BitVec 5) : (s.setWi t).tickReady = s.tickReady := rfl
@[simp] theorem State.setWi_guard (t : BitVec 5) : (s.setWi t).guard = s.guard := rfl
@[simp] theorem State.setWi_wf (t : BitVec 5) : (s.setWi t).wf = s.wf := rfl
@[simp] theorem State.setWi_watchedPin (t : BitVec 5) : (s.setWi t).watchedPin = s.watchedPin := rfl
@[simp] theorem State.setWi_tickPeriod (t : BitVec 5) : (s.setWi t).tickPeriod = s.tickPeriod := rfl
@[simp] theorem State.setWi_drawn (t : BitVec 5) : (s.setWi t).drawn = s.drawn := rfl
@[simp] theorem State.setWi_inputs (t : BitVec 5) : (s.setWi t).inputs = s.inputs := rfl
@[simp] theorem State.setWi_returned (t : BitVec 5) : (s.setWi t).returned = s.returned := rfl
@[simp] theorem State.setWi_byteAt (t : BitVec 5) (a : Nat) : (s.setWi t).byteAt a = s.byteAt a := rfl

@[simp] theorem State.raiseReceiveError_begun : (s.raiseReceiveError).begun = s.begun := rfl
@[simp] theorem State.raiseReceiveError_mode : (s.raiseReceiveError).mode = s.mode := rfl
@[simp] theorem State.raiseReceiveError_rxEn : (s.raiseReceiveError).rxEn = s.rxEn := rfl
@[simp] theorem State.raiseReceiveError_wi : (s.raiseReceiveError).wi = 0 := rfl
@[simp] theorem State.raiseReceiveError_bi : (s.raiseReceiveError).bi = s.bi := rfl
@[simp] theorem State.raiseReceiveError_acc : (s.raiseReceiveError).acc = s.acc := rfl
@[simp] theorem State.raiseReceiveError_par : (s.raiseReceiveError).par = s.par := rfl
@[simp] theorem State.raiseReceiveError_busy : (s.raiseReceiveError).busy = s.busy := rfl
@[simp] theorem State.raiseReceiveError_payload : (s.raiseReceiveError).payload = s.payload := rfl
@[simp] theorem State.raiseReceiveError_edgePend : (s.raiseReceiveError).edgePend = s.edgePend := rfl
@[simp] theorem State.raiseReceiveError_tickCnt : (s.raiseReceiveError).tickCnt = s.tickCnt := rfl
@[simp] theorem State.raiseReceiveError_tickReady : (s.raiseReceiveError).tickReady = s.tickReady := rfl
@[simp] theorem State.raiseReceiveError_guard : (s.raiseReceiveError).guard = s.guard := rfl
@[simp] theorem State.raiseReceiveError_wf : (s.raiseReceiveError).wf = s.wf := rfl
@[simp] theorem State.raiseReceiveError_watchedPin : (s.raiseReceiveError).watchedPin = s.watchedPin := rfl
@[simp] theorem State.raiseReceiveError_tickPeriod : (s.raiseReceiveError).tickPeriod = s.tickPeriod := rfl
@[simp] theorem State.raiseReceiveError_drawn : (s.raiseReceiveError).drawn = s.drawn := rfl
@[simp] theorem State.raiseReceiveError_inputs : (s.raiseReceiveError).inputs = s.inputs := rfl
@[simp] theorem State.raiseReceiveError_returned : (s.raiseReceiveError).returned = s.returned := rfl
@[simp] theorem State.raiseReceiveError_byteAt (a : Nat) : (s.raiseReceiveError).byteAt a = s.byteAt a := rfl

@[simp] theorem State.closePath_begun : (s.closePath).begun = s.begun := rfl
@[simp] theorem State.closePath_mode : (s.closePath).mode = s.mode := rfl
@[simp] theorem State.closePath_rxEn : (s.closePath).rxEn = false := rfl
@[simp] theorem State.closePath_wi : (s.closePath).wi = s.wi := rfl
@[simp] theorem State.closePath_bi : (s.closePath).bi = s.bi := rfl
@[simp] theorem State.closePath_acc : (s.closePath).acc = s.acc := rfl
@[simp] theorem State.closePath_par : (s.closePath).par = s.par := rfl
@[simp] theorem State.closePath_busy : (s.closePath).busy = s.busy := rfl
@[simp] theorem State.closePath_payload : (s.closePath).payload = s.payload := rfl
@[simp] theorem State.closePath_edgePend : (s.closePath).edgePend = s.edgePend := rfl
@[simp] theorem State.closePath_tickCnt : (s.closePath).tickCnt = s.tickCnt := rfl
@[simp] theorem State.closePath_tickReady : (s.closePath).tickReady = s.tickReady := rfl
@[simp] theorem State.closePath_guard : (s.closePath).guard = s.guard := rfl
@[simp] theorem State.closePath_wf : (s.closePath).wf = s.wf := rfl
@[simp] theorem State.closePath_watchedPin : (s.closePath).watchedPin = s.watchedPin := rfl
@[simp] theorem State.closePath_tickPeriod : (s.closePath).tickPeriod = s.tickPeriod := rfl
@[simp] theorem State.closePath_drawn : (s.closePath).drawn = s.drawn := rfl
@[simp] theorem State.closePath_inputs : (s.closePath).inputs = s.inputs := rfl
@[simp] theorem State.closePath_returned : (s.closePath).returned = s.returned := rfl
@[simp] theorem State.closePath_byteAt (a : Nat) : (s.closePath).byteAt a = s.byteAt a := rfl

@[simp] theorem State.clearEdges_begun : (s.clearEdges).begun = s.begun := rfl
@[simp] theorem State.clearEdges_mode : (s.clearEdges).mode = s.mode := rfl
@[simp] theorem State.clearEdges_rxEn : (s.clearEdges).rxEn = s.rxEn := rfl
@[simp] theorem State.clearEdges_wi : (s.clearEdges).wi = s.wi := rfl
@[simp] theorem State.clearEdges_bi : (s.clearEdges).bi = s.bi := rfl
@[simp] theorem State.clearEdges_acc : (s.clearEdges).acc = s.acc := rfl
@[simp] theorem State.clearEdges_par : (s.clearEdges).par = s.par := rfl
@[simp] theorem State.clearEdges_busy : (s.clearEdges).busy = s.busy := rfl
@[simp] theorem State.clearEdges_payload : (s.clearEdges).payload = s.payload := rfl
@[simp] theorem State.clearEdges_edgePend : (s.clearEdges).edgePend = false := rfl
@[simp] theorem State.clearEdges_tickCnt : (s.clearEdges).tickCnt = s.tickCnt := rfl
@[simp] theorem State.clearEdges_tickReady : (s.clearEdges).tickReady = s.tickReady := rfl
@[simp] theorem State.clearEdges_guard : (s.clearEdges).guard = s.guard := rfl
@[simp] theorem State.clearEdges_wf : (s.clearEdges).wf = s.wf := rfl
@[simp] theorem State.clearEdges_watchedPin : (s.clearEdges).watchedPin = s.watchedPin := rfl
@[simp] theorem State.clearEdges_tickPeriod : (s.clearEdges).tickPeriod = s.tickPeriod := rfl
@[simp] theorem State.clearEdges_drawn : (s.clearEdges).drawn = s.drawn := rfl
@[simp] theorem State.clearEdges_inputs : (s.clearEdges).inputs = s.inputs := rfl
@[simp] theorem State.clearEdges_returned : (s.clearEdges).returned = s.returned := rfl
@[simp] theorem State.clearEdges_selection : (s.clearEdges).selection = s.selection := rfl
@[simp] theorem State.clearEdges_byteAt (a : Nat) : (s.clearEdges).byteAt a = s.byteAt a := rfl

@[simp] theorem State.setGuard_begun (b : Bool) : (s.setGuard b).begun = s.begun := rfl
@[simp] theorem State.setGuard_mode (b : Bool) : (s.setGuard b).mode = s.mode := rfl
@[simp] theorem State.setGuard_rxEn (b : Bool) : (s.setGuard b).rxEn = s.rxEn := rfl
@[simp] theorem State.setGuard_wi (b : Bool) : (s.setGuard b).wi = s.wi := rfl
@[simp] theorem State.setGuard_bi (b : Bool) : (s.setGuard b).bi = s.bi := rfl
@[simp] theorem State.setGuard_acc (b : Bool) : (s.setGuard b).acc = s.acc := rfl
@[simp] theorem State.setGuard_par (b : Bool) : (s.setGuard b).par = s.par := rfl
@[simp] theorem State.setGuard_busy (b : Bool) : (s.setGuard b).busy = s.busy := rfl
@[simp] theorem State.setGuard_payload (b : Bool) : (s.setGuard b).payload = s.payload := rfl
@[simp] theorem State.setGuard_edgePend (b : Bool) : (s.setGuard b).edgePend = s.edgePend := rfl
@[simp] theorem State.setGuard_tickCnt (b : Bool) : (s.setGuard b).tickCnt = s.tickCnt := rfl
@[simp] theorem State.setGuard_tickReady (b : Bool) : (s.setGuard b).tickReady = s.tickReady := rfl
@[simp] theorem State.setGuard_guard (b : Bool) : (s.setGuard b).guard = b := rfl
@[simp] theorem State.setGuard_wf (b : Bool) : (s.setGuard b).wf = s.wf := rfl
@[simp] theorem State.setGuard_watchedPin (b : Bool) : (s.setGuard b).watchedPin = s.watchedPin := rfl
@[simp] theorem State.setGuard_tickPeriod (b : Bool) : (s.setGuard b).tickPeriod = s.tickPeriod := rfl
@[simp] theorem State.setGuard_drawn (b : Bool) : (s.setGuard b).drawn = s.drawn := rfl
@[simp] theorem State.setGuard_inputs (b : Bool) : (s.setGuard b).inputs = s.inputs := rfl
@[simp] theorem State.setGuard_returned (b : Bool) : (s.setGuard b).returned = s.returned := rfl
@[simp] theorem State.setGuard_selection (b : Bool) : (s.setGuard b).selection = s.selection := rfl
@[simp] theorem State.setGuard_byteAt (b : Bool) (a : Nat) : (s.setGuard b).byteAt a = s.byteAt a := rfl

@[simp] theorem State.reply_begun (r : Reply) : (s.reply r).begun = s.begun := rfl
@[simp] theorem State.reply_mode (r : Reply) : (s.reply r).mode = s.mode := rfl
@[simp] theorem State.reply_rxEn (r : Reply) : (s.reply r).rxEn = s.rxEn := rfl
@[simp] theorem State.reply_wi (r : Reply) : (s.reply r).wi = s.wi := rfl
@[simp] theorem State.reply_bi (r : Reply) : (s.reply r).bi = s.bi := rfl
@[simp] theorem State.reply_acc (r : Reply) : (s.reply r).acc = s.acc := rfl
@[simp] theorem State.reply_par (r : Reply) : (s.reply r).par = s.par := rfl
@[simp] theorem State.reply_busy (r : Reply) : (s.reply r).busy = s.busy := rfl
@[simp] theorem State.reply_payload (r : Reply) : (s.reply r).payload = s.payload := rfl
@[simp] theorem State.reply_edgePend (r : Reply) : (s.reply r).edgePend = s.edgePend := rfl
@[simp] theorem State.reply_tickCnt (r : Reply) : (s.reply r).tickCnt = s.tickCnt := rfl
@[simp] theorem State.reply_tickReady (r : Reply) : (s.reply r).tickReady = s.tickReady := rfl
@[simp] theorem State.reply_guard (r : Reply) : (s.reply r).guard = s.guard := rfl
@[simp] theorem State.reply_wf (r : Reply) : (s.reply r).wf = s.wf := rfl
@[simp] theorem State.reply_watchedPin (r : Reply) : (s.reply r).watchedPin = s.watchedPin := rfl
@[simp] theorem State.reply_tickPeriod (r : Reply) : (s.reply r).tickPeriod = s.tickPeriod := rfl
@[simp] theorem State.reply_drawn (r : Reply) : (s.reply r).drawn = s.drawn := rfl
@[simp] theorem State.reply_inputs (r : Reply) : (s.reply r).inputs = s.inputs := rfl
@[simp] theorem State.reply_returned (r : Reply) : (s.reply r).returned = s.returned ++ [r] := rfl
@[simp] theorem State.reply_selection (r : Reply) : (s.reply r).selection = s.selection := rfl
@[simp] theorem State.reply_byteAt (r : Reply) (a : Nat) : (s.reply r).byteAt a = s.byteAt a := rfl

@[simp] theorem State.initialise_begun (pin : Nat) (m : Mode) : (s.initialise pin m).begun = true := rfl
@[simp] theorem State.initialise_mode (pin : Nat) (m : Mode) : (s.initialise pin m).mode = m := rfl
@[simp] theorem State.initialise_rxEn (pin : Nat) (m : Mode) : (s.initialise pin m).rxEn = (m == .continuous) := rfl
@[simp] theorem State.initialise_wi (pin : Nat) (m : Mode) : (s.initialise pin m).wi = 0 := rfl
@[simp] theorem State.initialise_bi (pin : Nat) (m : Mode) : (s.initialise pin m).bi = s.bi := rfl
@[simp] theorem State.initialise_acc (pin : Nat) (m : Mode) : (s.initialise pin m).acc = s.acc := rfl
@[simp] theorem State.initialise_par (pin : Nat) (m : Mode) : (s.initialise pin m).par = s.par := rfl
@[simp] theorem State.initialise_busy (pin : Nat) (m : Mode) : (s.initialise pin m).busy = false := rfl
@[simp] theorem State.initialise_payload (pin : Nat) (m : Mode) : (s.initialise pin m).payload = Memory.initial := rfl
@[simp] theorem State.initialise_edgePend (pin : Nat) (m : Mode) : (s.initialise pin m).edgePend = false := rfl
@[simp] theorem State.initialise_tickCnt (pin : Nat) (m : Mode) : (s.initialise pin m).tickCnt = s.tickCnt := rfl
@[simp] theorem State.initialise_tickReady (pin : Nat) (m : Mode) : (s.initialise pin m).tickReady = s.tickReady := rfl
@[simp] theorem State.initialise_guard (pin : Nat) (m : Mode) : (s.initialise pin m).guard = false := rfl
@[simp] theorem State.initialise_wf (pin : Nat) (m : Mode) : (s.initialise pin m).wf = none := rfl
@[simp] theorem State.initialise_watchedPin (pin : Nat) (m : Mode) : (s.initialise pin m).watchedPin = some pin := rfl
@[simp] theorem State.initialise_tickPeriod (pin : Nat) (m : Mode) : (s.initialise pin m).tickPeriod = some Config.tBit := rfl
@[simp] theorem State.initialise_drawn (pin : Nat) (m : Mode) : (s.initialise pin m).drawn = s.drawn := rfl
@[simp] theorem State.initialise_inputs (pin : Nat) (m : Mode) : (s.initialise pin m).inputs = s.inputs := rfl
@[simp] theorem State.initialise_returned (pin : Nat) (m : Mode) : (s.initialise pin m).returned = s.returned := rfl

@[simp] theorem State.armWait_begun (timeout now : Ms) : (s.armWait timeout now).begun = s.begun := rfl
@[simp] theorem State.armWait_mode (timeout now : Ms) : (s.armWait timeout now).mode = s.mode := rfl
@[simp] theorem State.armWait_rxEn (timeout now : Ms) : (s.armWait timeout now).rxEn = true := rfl
@[simp] theorem State.armWait_wi (timeout now : Ms) : (s.armWait timeout now).wi = s.wi := rfl
@[simp] theorem State.armWait_bi (timeout now : Ms) : (s.armWait timeout now).bi = s.bi := rfl
@[simp] theorem State.armWait_acc (timeout now : Ms) : (s.armWait timeout now).acc = s.acc := rfl
@[simp] theorem State.armWait_par (timeout now : Ms) : (s.armWait timeout now).par = s.par := rfl
@[simp] theorem State.armWait_busy (timeout now : Ms) : (s.armWait timeout now).busy = s.busy := rfl
@[simp] theorem State.armWait_payload (timeout now : Ms) : (s.armWait timeout now).payload = s.payload := rfl
@[simp] theorem State.armWait_edgePend (timeout now : Ms) : (s.armWait timeout now).edgePend = false := rfl
@[simp] theorem State.armWait_tickCnt (timeout now : Ms) : (s.armWait timeout now).tickCnt = s.tickCnt := rfl
@[simp] theorem State.armWait_tickReady (timeout now : Ms) : (s.armWait timeout now).tickReady = s.tickReady := rfl
@[simp] theorem State.armWait_guard (timeout now : Ms) : (s.armWait timeout now).guard = s.guard := rfl
@[simp] theorem State.armWait_wf (timeout now : Ms) : (s.armWait timeout now).wf = some ⟨now, timeout⟩ := rfl
@[simp] theorem State.armWait_watchedPin (timeout now : Ms) : (s.armWait timeout now).watchedPin = s.watchedPin := rfl
@[simp] theorem State.armWait_tickPeriod (timeout now : Ms) : (s.armWait timeout now).tickPeriod = s.tickPeriod := rfl
@[simp] theorem State.armWait_drawn (timeout now : Ms) : (s.armWait timeout now).drawn = s.drawn := rfl
@[simp] theorem State.armWait_inputs (timeout now : Ms) : (s.armWait timeout now).inputs = s.inputs := rfl
@[simp] theorem State.armWait_returned (timeout now : Ms) : (s.armWait timeout now).returned = s.returned := rfl
@[simp] theorem State.armWait_byteAt (timeout now : Ms) (a : Nat) : (s.armWait timeout now).byteAt a = s.byteAt a := rfl

@[simp] theorem State.endWait_begun : (s.endWait).begun = s.begun := rfl
@[simp] theorem State.endWait_mode : (s.endWait).mode = s.mode := rfl
@[simp] theorem State.endWait_rxEn : (s.endWait).rxEn = s.rxEn := rfl
@[simp] theorem State.endWait_wi : (s.endWait).wi = s.wi := rfl
@[simp] theorem State.endWait_bi : (s.endWait).bi = s.bi := rfl
@[simp] theorem State.endWait_acc : (s.endWait).acc = s.acc := rfl
@[simp] theorem State.endWait_par : (s.endWait).par = s.par := rfl
@[simp] theorem State.endWait_busy : (s.endWait).busy = s.busy := rfl
@[simp] theorem State.endWait_payload : (s.endWait).payload = s.payload := rfl
@[simp] theorem State.endWait_edgePend : (s.endWait).edgePend = s.edgePend := rfl
@[simp] theorem State.endWait_tickCnt : (s.endWait).tickCnt = s.tickCnt := rfl
@[simp] theorem State.endWait_tickReady : (s.endWait).tickReady = s.tickReady := rfl
@[simp] theorem State.endWait_guard : (s.endWait).guard = s.guard := rfl
@[simp] theorem State.endWait_wf : (s.endWait).wf = none := rfl
@[simp] theorem State.endWait_watchedPin : (s.endWait).watchedPin = s.watchedPin := rfl
@[simp] theorem State.endWait_tickPeriod : (s.endWait).tickPeriod = s.tickPeriod := rfl
@[simp] theorem State.endWait_drawn : (s.endWait).drawn = s.drawn := rfl
@[simp] theorem State.endWait_inputs : (s.endWait).inputs = s.inputs := rfl
@[simp] theorem State.endWait_returned : (s.endWait).returned = s.returned := rfl
@[simp] theorem State.endWait_selection : (s.endWait).selection = s.selection := rfl
@[simp] theorem State.endWait_byteAt (a : Nat) : (s.endWait).byteAt a = s.byteAt a := rfl

@[simp] theorem State.putByte_begun (k : Nat) (v : Byte) : (s.putByte k v).begun = s.begun := rfl
@[simp] theorem State.putByte_mode (k : Nat) (v : Byte) : (s.putByte k v).mode = s.mode := rfl
@[simp] theorem State.putByte_rxEn (k : Nat) (v : Byte) : (s.putByte k v).rxEn = s.rxEn := rfl
@[simp] theorem State.putByte_wi (k : Nat) (v : Byte) : (s.putByte k v).wi = s.wi := rfl
@[simp] theorem State.putByte_bi (k : Nat) (v : Byte) : (s.putByte k v).bi = s.bi := rfl
@[simp] theorem State.putByte_acc (k : Nat) (v : Byte) : (s.putByte k v).acc = s.acc := rfl
@[simp] theorem State.putByte_par (k : Nat) (v : Byte) : (s.putByte k v).par = s.par := rfl
@[simp] theorem State.putByte_busy (k : Nat) (v : Byte) : (s.putByte k v).busy = s.busy := rfl
@[simp] theorem State.putByte_payload (k : Nat) (v : Byte) : (s.putByte k v).payload = Memory.write k v s.payload := rfl
@[simp] theorem State.putByte_edgePend (k : Nat) (v : Byte) : (s.putByte k v).edgePend = s.edgePend := rfl
@[simp] theorem State.putByte_tickCnt (k : Nat) (v : Byte) : (s.putByte k v).tickCnt = s.tickCnt := rfl
@[simp] theorem State.putByte_tickReady (k : Nat) (v : Byte) : (s.putByte k v).tickReady = s.tickReady := rfl
@[simp] theorem State.putByte_guard (k : Nat) (v : Byte) : (s.putByte k v).guard = s.guard := rfl
@[simp] theorem State.putByte_wf (k : Nat) (v : Byte) : (s.putByte k v).wf = s.wf := rfl
@[simp] theorem State.putByte_watchedPin (k : Nat) (v : Byte) : (s.putByte k v).watchedPin = s.watchedPin := rfl
@[simp] theorem State.putByte_tickPeriod (k : Nat) (v : Byte) : (s.putByte k v).tickPeriod = s.tickPeriod := rfl
@[simp] theorem State.putByte_drawn (k : Nat) (v : Byte) : (s.putByte k v).drawn = s.drawn := rfl
@[simp] theorem State.putByte_inputs (k : Nat) (v : Byte) : (s.putByte k v).inputs = s.inputs := rfl
@[simp] theorem State.putByte_returned (k : Nat) (v : Byte) : (s.putByte k v).returned = s.returned := rfl
@[simp] theorem State.putByte_selection (k : Nat) (v : Byte) : (s.putByte k v).selection = s.selection := rfl

@[simp] theorem State.deliver_begun (p : Packet) : (s.deliver p).begun = s.begun := rfl
@[simp] theorem State.deliver_mode (p : Packet) : (s.deliver p).mode = s.mode := rfl
@[simp] theorem State.deliver_rxEn (p : Packet) : (s.deliver p).rxEn = s.rxEn := rfl
@[simp] theorem State.deliver_wi (p : Packet) : (s.deliver p).wi = s.wi := rfl
@[simp] theorem State.deliver_bi (p : Packet) : (s.deliver p).bi = s.bi := rfl
@[simp] theorem State.deliver_acc (p : Packet) : (s.deliver p).acc = s.acc := rfl
@[simp] theorem State.deliver_par (p : Packet) : (s.deliver p).par = s.par := rfl
@[simp] theorem State.deliver_busy (p : Packet) : (s.deliver p).busy = s.busy := rfl
@[simp] theorem State.deliver_payload (p : Packet) : (s.deliver p).payload = s.payload := rfl
@[simp] theorem State.deliver_edgePend (p : Packet) : (s.deliver p).edgePend = (s.edgePend || (isEdgePacket p && s.begun && s.rxEn)) := rfl
@[simp] theorem State.deliver_tickCnt (p : Packet) : (s.deliver p).tickCnt = Config.tickCount s.drawn := rfl
@[simp] theorem State.deliver_tickReady (p : Packet) : (s.deliver p).tickReady = (s.tickReady || isTickPacket p) := rfl
@[simp] theorem State.deliver_guard (p : Packet) : (s.deliver p).guard = s.guard := rfl
@[simp] theorem State.deliver_wf (p : Packet) : (s.deliver p).wf = s.wf := rfl
@[simp] theorem State.deliver_watchedPin (p : Packet) : (s.deliver p).watchedPin = s.watchedPin := rfl
@[simp] theorem State.deliver_tickPeriod (p : Packet) : (s.deliver p).tickPeriod = s.tickPeriod := rfl
@[simp] theorem State.deliver_drawn (p : Packet) : (s.deliver p).drawn = s.drawn + 1 := rfl
@[simp] theorem State.deliver_inputs (p : Packet) : (s.deliver p).inputs = s.inputs := rfl
@[simp] theorem State.deliver_returned (p : Packet) : (s.deliver p).returned = s.returned := rfl
@[simp] theorem State.deliver_selection (p : Packet) : (s.deliver p).selection = s.selection := rfl
@[simp] theorem State.deliver_byteAt (p : Packet) (a : Nat) : (s.deliver p).byteAt a = s.byteAt a := rfl

@[simp] theorem State.withInputs_begun (ps : List Packet) : (s.withInputs ps).begun = s.begun := rfl
@[simp] theorem State.withInputs_mode (ps : List Packet) : (s.withInputs ps).mode = s.mode := rfl
@[simp] theorem State.withInputs_rxEn (ps : List Packet) : (s.withInputs ps).rxEn = s.rxEn := rfl
@[simp] theorem State.withInputs_wi (ps : List Packet) : (s.withInputs ps).wi = s.wi := rfl
@[simp] theorem State.withInputs_bi (ps : List Packet) : (s.withInputs ps).bi = s.bi := rfl
@[simp] theorem State.withInputs_acc (ps : List Packet) : (s.withInputs ps).acc = s.acc := rfl
@[simp] theorem State.withInputs_par (ps : List Packet) : (s.withInputs ps).par = s.par := rfl
@[simp] theorem State.withInputs_busy (ps : List Packet) : (s.withInputs ps).busy = s.busy := rfl
@[simp] theorem State.withInputs_payload (ps : List Packet) : (s.withInputs ps).payload = s.payload := rfl
@[simp] theorem State.withInputs_edgePend (ps : List Packet) : (s.withInputs ps).edgePend = s.edgePend := rfl
@[simp] theorem State.withInputs_tickCnt (ps : List Packet) : (s.withInputs ps).tickCnt = s.tickCnt := rfl
@[simp] theorem State.withInputs_tickReady (ps : List Packet) : (s.withInputs ps).tickReady = s.tickReady := rfl
@[simp] theorem State.withInputs_guard (ps : List Packet) : (s.withInputs ps).guard = s.guard := rfl
@[simp] theorem State.withInputs_wf (ps : List Packet) : (s.withInputs ps).wf = s.wf := rfl
@[simp] theorem State.withInputs_watchedPin (ps : List Packet) : (s.withInputs ps).watchedPin = s.watchedPin := rfl
@[simp] theorem State.withInputs_tickPeriod (ps : List Packet) : (s.withInputs ps).tickPeriod = s.tickPeriod := rfl
@[simp] theorem State.withInputs_drawn (ps : List Packet) : (s.withInputs ps).drawn = s.drawn := rfl
@[simp] theorem State.withInputs_inputs (ps : List Packet) : (s.withInputs ps).inputs = ps := rfl
@[simp] theorem State.withInputs_returned (ps : List Packet) : (s.withInputs ps).returned = s.returned := rfl
@[simp] theorem State.withInputs_selection (ps : List Packet) : (s.withInputs ps).selection = s.selection := rfl
@[simp] theorem State.withInputs_byteAt (ps : List Packet) (a : Nat) : (s.withInputs ps).byteAt a = s.byteAt a := rfl

@[simp] theorem State.selection_begun : s.selection.begun = s.begun := rfl
@[simp] theorem State.selection_rxEn : s.selection.rxEn = s.rxEn := rfl
@[simp] theorem State.selection_busy : s.selection.busy = s.busy := rfl
@[simp] theorem State.selection_bi : s.selection.bi = s.bi := rfl
@[simp] theorem State.selection_wi : s.selection.wi = s.wi := rfl

@[simp] theorem State.pollTurn_begun (wt : Wait) (now : Ms) : (s.pollTurn wt now).begun = s.begun := by
  unfold State.pollTurn; split_ifs <;> rfl
@[simp] theorem State.pollTurn_mode (wt : Wait) (now : Ms) : (s.pollTurn wt now).mode = s.mode := by
  unfold State.pollTurn; split_ifs <;> rfl
@[simp] theorem State.pollTurn_rxEn (wt : Wait) (now : Ms) : (s.pollTurn wt now).rxEn = s.rxEn := by
  unfold State.pollTurn; split_ifs <;> rfl
@[simp] theorem State.pollTurn_wi (wt : Wait) (now : Ms) : (s.pollTurn wt now).wi = s.wi := by
  unfold State.pollTurn; split_ifs <;> rfl
@[simp] theorem State.pollTurn_bi (wt : Wait) (now : Ms) : (s.pollTurn wt now).bi = s.bi := by
  unfold State.pollTurn; split_ifs <;> rfl
@[simp] theorem State.pollTurn_acc (wt : Wait) (now : Ms) : (s.pollTurn wt now).acc = s.acc := by
  unfold State.pollTurn; split_ifs <;> rfl
@[simp] theorem State.pollTurn_par (wt : Wait) (now : Ms) : (s.pollTurn wt now).par = s.par := by
  unfold State.pollTurn; split_ifs <;> rfl
@[simp] theorem State.pollTurn_busy (wt : Wait) (now : Ms) : (s.pollTurn wt now).busy = s.busy := by
  unfold State.pollTurn; split_ifs <;> rfl
@[simp] theorem State.pollTurn_payload (wt : Wait) (now : Ms) : (s.pollTurn wt now).payload = s.payload := by
  unfold State.pollTurn; split_ifs <;> rfl
@[simp] theorem State.pollTurn_edgePend (wt : Wait) (now : Ms) : (s.pollTurn wt now).edgePend = s.edgePend := by
  unfold State.pollTurn; split_ifs <;> rfl
@[simp] theorem State.pollTurn_tickCnt (wt : Wait) (now : Ms) : (s.pollTurn wt now).tickCnt = s.tickCnt := by
  unfold State.pollTurn; split_ifs <;> rfl
@[simp] theorem State.pollTurn_tickReady (wt : Wait) (now : Ms) : (s.pollTurn wt now).tickReady = s.tickReady := by
  unfold State.pollTurn; split_ifs <;> rfl
@[simp] theorem State.pollTurn_guard (wt : Wait) (now : Ms) : (s.pollTurn wt now).guard = s.guard := by
  unfold State.pollTurn; split_ifs <;> rfl
@[simp] theorem State.pollTurn_watchedPin (wt : Wait) (now : Ms) : (s.pollTurn wt now).watchedPin = s.watchedPin := by
  unfold State.pollTurn; split_ifs <;> rfl
@[simp] theorem State.pollTurn_tickPeriod (wt : Wait) (now : Ms) : (s.pollTurn wt now).tickPeriod = s.tickPeriod := by
  unfold State.pollTurn; split_ifs <;> rfl
@[simp] theorem State.pollTurn_drawn (wt : Wait) (now : Ms) : (s.pollTurn wt now).drawn = s.drawn := by
  unfold State.pollTurn; split_ifs <;> rfl
@[simp] theorem State.pollTurn_inputs (wt : Wait) (now : Ms) : (s.pollTurn wt now).inputs = s.inputs := by
  unfold State.pollTurn; split_ifs <;> rfl
@[simp] theorem State.pollTurn_byteAt (wt : Wait) (now : Ms) (a : Nat) : (s.pollTurn wt now).byteAt a = s.byteAt a := by
  unfold State.pollTurn; split_ifs <;> rfl

/-- Everything a turn of the wait loop can do. -/
theorem State.pollTurn_cases (wt : Wait) (now : Ms) :
    (s.rxEn = false ∧ s.pollTurn wt now = s.endWait.reply (.bit true)) ∨
    (s.rxEn = true ∧ wt.expired now = true ∧ s.pollTurn wt now = s.endWait.reply (.bit false)) ∨
    (s.rxEn = true ∧ wt.expired now = false ∧ s.pollTurn wt now = s) := by
  unfold State.pollTurn
  cases s.rxEn <;> cases wt.expired now <;> simp

end Sys2Proof.Machine
end

