-- ==== Sys2Proof/Laws/Memory.lean ====
section
/-! SUPPORT. The laws of the frame buffer: read after write, the canonical form, and what `BEGIN` leaves. -/

namespace Sys2Proof.Machine

theorem Memory.read_erase (a b : Nat) (m : List Host.Cell) :
    Memory.read b (Memory.erase a m) = if b = a then Memory.unlisted else Memory.read b m := by
  induction m with
  | nil => simp [Memory.erase, Memory.read]
  | cons c m ih =>
    obtain ⟨k, w⟩ := c
    simp only [Memory.erase] at ih
    by_cases hk : k = a
    · subst hk
      simp only [Memory.erase, List.filter_cons, bne_self_eq_false, Bool.false_eq_true, if_false, ih, Memory.read]
      split_ifs <;> first | rfl | omega
    · simp only [Memory.erase, List.filter_cons, bne_iff_ne, ne_eq, hk, not_false_eq_true, if_true, Memory.read, ih]
      split_ifs <;> first | rfl | omega

/-- Listing a byte at an offset gives it there, and leaves every other offset alone. -/
theorem Memory.read_insert {a : Nat} (b : Nat) (v : Byte) {m : List Host.Cell} (h : ∀ c ∈ m, c.1 ≠ a) :
    Memory.read b (Memory.insert a v m) = if b = a then v else Memory.read b m := by
  induction m with
  | nil => simp [Memory.insert, Memory.read, eq_comm]
  | cons c m ih =>
    obtain ⟨k, w⟩ := c
    have hk : k ≠ a := h (k, w) (by simp)
    have ih := ih fun c hc => h c (by simp [hc])
    simp only [Memory.insert]
    split_ifs <;> simp only [Memory.read, ih] <;> split_ifs <;> first | rfl | omega

theorem Memory.erase_absent (a : Nat) (m : List Host.Cell) : ∀ c ∈ Memory.erase a m, c.1 ≠ a := by
  simp [Memory.erase]

/-- Reading an offset after a write gives the byte written there, and elsewhere what was there before. -/
theorem Memory.read_write (a b : Nat) (v : Byte) (m : List Host.Cell) :
    Memory.read b (Memory.write a v m) = if b = a then v else Memory.read b m := by
  unfold Memory.write
  split_ifs with hv hb hb
  · simp [Memory.read_erase, hb, hv]
  · simp [Memory.read_erase, hb]
  · rw [Memory.read_insert b v (Memory.erase_absent a m), if_pos hb]
  · rw [Memory.read_insert b v (Memory.erase_absent a m), Memory.read_erase, if_neg hb, if_neg hb]

theorem Memory.read_write_same (a : Nat) (v : Byte) (m : List Host.Cell) :
    Memory.read a (Memory.write a v m) = v := by
  simp [Memory.read_write]

theorem Memory.rising_mono {lo lo' : Nat} {m : List Host.Cell} (hle : lo' ≤ lo) (h : Memory.rising lo m = true) :
    Memory.rising lo' m = true := by
  cases m with
  | nil => rfl
  | cons c m =>
    simp only [Memory.rising, Bool.and_eq_true, decide_eq_true_eq] at h ⊢
    exact ⟨⟨⟨hle.trans h.1.1.1, h.1.1.2⟩, h.1.2⟩, h.2⟩

theorem Memory.rising_erase (a : Nat) {m : List Host.Cell} {lo : Nat} (h : Memory.rising lo m = true) :
    Memory.rising lo (Memory.erase a m) = true := by
  induction m generalizing lo with
  | nil => rfl
  | cons c m ih =>
    obtain ⟨k, w⟩ := c
    simp only [Memory.rising, Bool.and_eq_true, decide_eq_true_eq] at h
    have hm := ih h.2
    simp only [Memory.erase] at hm ⊢
    by_cases hk : k = a
    · simp only [List.filter_cons, hk, bne_self_eq_false, Bool.false_eq_true, if_false]
      rw [hk] at hm h
      exact Memory.rising_mono (Nat.le_succ_of_le h.1.1.1) hm
    · simp only [List.filter_cons, bne_iff_ne, ne_eq, hk, not_false_eq_true, if_true, Memory.rising, Bool.and_eq_true,
        decide_eq_true_eq]
      exact ⟨by simpa using h.1, hm⟩

/-- Listing a byte that is not read unlisted, at an absent offset of the buffer, keeps the offsets rising. -/
theorem Memory.rising_insert {a : Nat} {v : Byte} (ha : a < 23) (hv : v ≠ Memory.unlisted) {m : List Host.Cell} {lo : Nat}
    (hlo : lo ≤ a) (hm : ∀ c ∈ m, c.1 ≠ a) (h : Memory.rising lo m = true) :
    Memory.rising lo (Memory.insert a v m) = true := by
  induction m generalizing lo with
  | nil => simpa [Memory.insert, Memory.rising, hlo, ha] using hv
  | cons c m ih =>
    obtain ⟨k, w⟩ := c
    have hk : k ≠ a := hm (k, w) (by simp)
    simp only [Memory.rising, Bool.and_eq_true, decide_eq_true_eq, bne_iff_ne, ne_eq] at h
    simp only [Memory.insert]
    split_ifs with hlt
    · simp only [Memory.rising, Bool.and_eq_true, decide_eq_true_eq, bne_iff_ne, ne_eq]
      exact ⟨⟨⟨hlo, ha⟩, hv⟩, ⟨⟨by omega, h.1.1.2⟩, h.1.2⟩, h.2⟩
    · simp only [Memory.rising, Bool.and_eq_true, decide_eq_true_eq, bne_iff_ne, ne_eq]
      exact ⟨h.1, ih (by omega) (fun c hc => hm c (by simp [hc])) h.2⟩

/-- A store inside the buffer keeps the canonical form. -/
theorem Memory.wf_write {a : Nat} {v : Byte} {m : List Host.Cell} (ha : a < 23) (h : Memory.wf m = true) :
    Memory.wf (Memory.write a v m) = true := by
  unfold Memory.write
  split_ifs with hv
  · exact Memory.rising_erase a h
  · exact Memory.rising_insert ha hv (Nat.zero_le _) (Memory.erase_absent a m) (Memory.rising_erase a h)

/-- Nothing listed is canonical: the power-on buffer. -/
theorem Memory.wf_nil : Memory.wf [] = true := rfl

theorem Memory.read_fill (f : Nat → Byte) (a : Nat) (ks : List Nat) :
    Memory.read a (Memory.fill f ks) = if a ∈ ks then f a else Memory.unlisted := by
  induction ks with
  | nil => rfl
  | cons k ks ih =>
    simp only [Memory.fill, Memory.read_write, ih, List.mem_cons]
    by_cases h : a = k
    · simp [h]
    · simp [h]

theorem Memory.wf_fill (f : Nat → Byte) {ks : List Nat} (h : ∀ k ∈ ks, k < 23) : Memory.wf (Memory.fill f ks) = true := by
  induction ks with
  | nil => rfl
  | cons k ks ih => exact Memory.wf_write (h k (by simp)) (ih fun j hj => h j (by simp [hj]))

theorem Memory.wf_initial : Memory.wf Memory.initial = true :=
  Memory.wf_fill _ fun _ h => List.mem_range.mp h

/-- The buffer right after `BEGIN` reads `PAYLOAD_INIT` at its 23 offsets. -/
theorem Memory.read_initial (a : Nat) :
    Memory.read a Memory.initial = if a < 23 then Config.payloadInit a else Memory.unlisted := by
  simp [Memory.initial, Memory.read_fill]

theorem State.putByte_byteAt (s : State) (k a : Nat) (v : Byte) :
    (s.putByte k v).byteAt a = if a = k then v else s.byteAt a :=
  Memory.read_write k a v s.payload

end Sys2Proof.Machine
end

