-- ==== Sys2Proof/Laws/Ops.lean ====
section
/-! SUPPORT. One lemma for each shared operation that says once everything it can do. -/

namespace Sys2Proof.Machine

@[simp] theorem Result.andThen_next (s : State) (k : State → Result) :
    Result.andThen (.next s) k = k s := rfl

@[simp] theorem Result.andThen_fault (f : Fault) (k : State → Result) :
    Result.andThen (.fault f) k = .fault f := rfl

@[simp] theorem Result.andThen_refused (r : Refusal) (k : State → Result) :
    Result.andThen (.refused r) k = .refused r := rfl

/-- A composition answers a next state exactly through a next state of its first part. -/
theorem Result.andThen_eq_next {r : Result} {k : State → Result} {t : State} :
    r.andThen k = .next t ↔ ∃ u, r = .next u ∧ k u = .next t := by
  cases r <;> simp [Result.andThen]

/-- A command of the consumer side goes on exactly in a state that admits it. -/
theorem ifCommandReady_eq_next {s t : State} {k : Result} :
    ifCommandReady s k = .next t ↔ s.begun = true ∧ s.busy = false ∧ s.wf = none ∧ k = .next t := by
  unfold ifCommandReady
  cases s.begun <;> cases s.busy <;> cases s.wf <;> simp

theorem ifCommandReady_of {s : State} (k : Result) (h : s.begun = true ∧ s.busy = false ∧ s.wf = none) :
    ifCommandReady s k = k := by
  obtain ⟨h1, h2, h3⟩ := h
  simp [ifCommandReady, h1, h2, h3]

/-- A wait is over when the difference of the readings, modulo the clock's range, exceeds its timeout. -/
theorem timedOut_iff {w : Nat} (t0 timeout now : BitVec w) :
    timedOut t0 timeout now = true ↔ timeout.toNat < (now.toNat + 2 ^ w - t0.toNat) % 2 ^ w := by
  have h := t0.isLt
  simp only [timedOut, elapsed, decide_eq_true_eq, BitVec.lt_def, BitVec.toNat_sub]
  rw [show 2 ^ w - t0.toNat + now.toNat = now.toNat + 2 ^ w - t0.toNat by omega]

/-- A load at an offset of the buffer answers its byte, in every state. -/
theorem load1_of_lt {k : Nat} (s : State) (h : k < 23) : load1 k s = .ok (s.byteAt k) := by
  simp [load1, h]

theorem load3_of_lt {k : Nat} (s : State) (h : k + 2 < 23) :
    load3 k s = .ok (s.byteAt k, s.byteAt (k + 1), s.byteAt (k + 2)) := by
  simp [load3, load1, h, show k < 23 by omega, show k + 1 < 23 by omega]

/-- A read of a flag bit always answers. -/
theorem replyFlag_eq (k : Nat) (s : State) : replyFlag k s = .next (s.reply (.bit ((s.byteAt 22).getLsbD k))) := by
  simp [replyFlag, load1_of_lt s (show 22 < 23 by omega)]

/-- Everything a store can do: a byte of the buffer put, or the fault of an offset that does not exist. -/
theorem store1_cases (k : Nat) (v : Byte) (s : State) :
    (k < 23 ∧ store1 k v s = .next (s.putByte k v)) ∨ (23 ≤ k ∧ store1 k v s = .fault (.noSuchOffset k)) := by
  unfold store1
  rcases Nat.lt_or_ge k 23 with h | h
  · exact .inl ⟨h, by simp [h]⟩
  · exact .inr ⟨h, by simp [Nat.not_lt.mpr h]⟩

/-- `W_STORE`, in the range that selects it, is a store and an advance. -/
theorem execWStore_eq {d : Byte} {s : State} (h1 : 1 ≤ s.wi.toNat) (h2 : s.wi.toNat ≤ 23) :
    execWStore d s = .next ((s.putByte (s.wi.toNat - 1) d).setWi (s.wi + 1)) := by
  have h : s.wi.toNat - 1 < 23 := by omega
  simp [execWStore, h1, h2, store1, h]

/-- The word dispatch, in closed form, at each of the word indices it knows. -/
theorem dispatchWord_cases (d : Byte) (s : State) :
    (s.wi.toNat = 0 ∧ dispatchWord d s = .next (s.setWi (if d = 0x0F#8 then 1 else 0))) ∨
    (1 ≤ s.wi.toNat ∧ s.wi.toNat ≤ 23 ∧
      dispatchWord d s = .next ((s.putByte (s.wi.toNat - 1) d).setWi (s.wi + 1))) ∨
    (s.wi.toNat = 24 ∧ dispatchWord d s = .next ((if s.mode = .onDemand then s.closePath else s).setWi 0)) ∨
    (25 ≤ s.wi.toNat ∧ dispatchWord d s = .refused .notEnabled) := by
  rcases Nat.lt_or_ge s.wi.toNat 1 with h | h
  · left
    have h0 : s.wi.toNat = 0 := by omega
    refine ⟨h0, ?_⟩
    simp only [dispatchWord, execWSentinel, h0, if_true, Config.sentinel, State.raiseReceiveError]
    split_ifs <;> rfl
  · right
    rcases Nat.lt_or_ge s.wi.toNat 24 with h' | h'
    · left
      refine ⟨h, by omega, ?_⟩
      have e : dispatchWord d s = execWStore d s := by
        simp [dispatchWord, show ¬ s.wi.toNat = 0 by omega, show ¬ s.wi.toNat = 24 by omega]
      rw [e, execWStore_eq h (by omega)]
    · right
      rcases Nat.lt_or_ge s.wi.toNat 25 with h'' | h''
      · left
        have h24 : s.wi.toNat = 24 := by omega
        exact ⟨h24, by simp [dispatchWord, execWTerm, h24]⟩
      · right
        exact ⟨h'', by
          simp [dispatchWord, execWStore, show ¬ s.wi.toNat = 0 by omega, show ¬ s.wi.toNat = 24 by omega,
            show ¬ s.wi.toNat ≤ 23 by omega]⟩

/-- The index dispatch: 1..16 a proportional channel, 17 and 18 a binary one, anything else invalid (R161). -/
theorem channelOf_cases (idx : Nat) :
    (1 ≤ idx ∧ idx ≤ 16 ∧ ∃ e, layoutTable[idx - 1]? = some e ∧ channelOf idx = .prop e) ∨
    (idx = 17 ∧ channelOf idx = .binary 0) ∨ (idx = 18 ∧ channelOf idx = .binary 1) ∨
    ((idx = 0 ∨ 19 ≤ idx) ∧ channelOf idx = .invalid) := by
  have hl : layoutTable.length = 16 := rfl
  rcases Nat.lt_or_ge idx 1 with h | h
  · have : idx = 0 := by omega
    subst this; exact .inr (.inr (.inr ⟨.inl rfl, rfl⟩))
  rcases Nat.lt_or_ge idx 17 with h1 | h1
  · left
    have hlt : idx - 1 < layoutTable.length := by omega
    refine ⟨h, by omega, layoutTable[idx - 1], List.getElem?_eq_getElem hlt, ?_⟩
    simp [channelOf, show ¬ idx = 0 by omega, List.getElem?_eq_getElem hlt]
  · have hn : layoutTable[idx - 1]? = none := List.getElem?_eq_none (by omega)
    rcases Nat.lt_or_ge idx 19 with h2 | h2
    · rcases Nat.lt_or_ge idx 18 with h3 | h3
      · have : idx = 17 := by omega
        subst this; exact .inr (.inl ⟨rfl, rfl⟩)
      · have : idx = 18 := by omega
        subst this; exact .inr (.inr (.inl ⟨rfl, rfl⟩))
    · refine .inr (.inr (.inr ⟨.inr h2, ?_⟩))
      simp [channelOf, hn, show ¬ idx = 0 by omega, show ¬ idx = 17 by omega, show ¬ idx = 18 by omega]

/-- Every layout entry's three bytes lie inside the buffer (R64). -/
theorem layout_offset_in_buffer {c : Nat} {e : LayoutEntry} (h : layoutTable[c]? = some e) : e.off + 2 ≤ 22 := by
  have hm : e ∈ layoutTable := List.mem_of_getElem? h
  have all : ∀ x ∈ layoutTable, x.off + 2 ≤ 22 := by decide
  exact all e hm

/-- What `GETCHRAW`'s read of a proportional channel answers: the three bytes of its entry joined, the guard down. -/
theorem rawValue_prop {idx : Nat} {e : LayoutEntry} (s : State) (he : layoutTable[idx - 1]? = some e)
    (hc : channelOf idx = .prop e) :
    rawValue idx s =
      .ok (combine e (s.byteAt e.off) (s.byteAt (e.off + 1)) (s.byteAt (e.off + 2)), s.setGuard false) := by
  have ho := layout_offset_in_buffer he
  simp only [rawValue, hc, load3_of_lt (s.setGuard true) (show e.off + 2 < 23 by omega), State.setGuard_byteAt]
  rfl

theorem rawValue_binary {idx k : Nat} (s : State) (hc : channelOf idx = .binary k) :
    rawValue idx s = .ok (binaryRaw ((s.byteAt 22).getLsbD k), s) := by
  simp [rawValue, hc, load1_of_lt s (show 22 < 23 by omega)]

theorem rawValue_invalid {idx : Nat} (s : State) (hc : channelOf idx = .invalid) : rawValue idx s = .ok (0#16, s) := by
  simp [rawValue, hc]

/-- `GETCHRAW`'s read answers a value for every index, in every state, and leaves the state but for the guard. -/
theorem rawValue_total (idx : Nat) (s : State) : ∃ v t, rawValue idx s = .ok (v, t) ∧ (t = s ∨ t = s.setGuard false) := by
  rcases channelOf_cases idx with ⟨_, _, e, he, hc⟩ | ⟨_, hc⟩ | ⟨_, hc⟩ | ⟨_, hc⟩
  · exact ⟨_, _, rawValue_prop s he hc, .inr rfl⟩
  · exact ⟨_, _, rawValue_binary s hc, .inl rfl⟩
  · exact ⟨_, _, rawValue_binary s hc, .inl rfl⟩
  · exact ⟨_, _, rawValue_invalid s hc, .inl rfl⟩

/-- The state after `GETCHRAW`'s read is the one before it, with the guard down if it was raised. -/
theorem rawValue_ok {idx : Nat} {s t : State} {v : BitVec 16} (h : rawValue idx s = .ok (v, t)) :
    t = s ∨ t = s.setGuard false := by
  obtain ⟨v', t', h', ht⟩ := rawValue_total idx s
  rw [h'] at h
  cases h
  exact ht

/-- The scheduler serves the head of the inputs when it is not held back. -/
theorem takeInput_head {busy guard : Bool} {p : Packet} {ps : List Packet} (h : held busy guard p = false) :
    takeInput busy guard (p :: ps) = some (p, ps) := by
  simp [takeInput, h]

/-- What the scheduler serves is an input that is not held back, with the rest in order. -/
theorem takeInput_eq_some {busy guard : Bool} :
    ∀ {ps : List Packet} {q : Packet} {rest : List Packet}, takeInput busy guard ps = some (q, rest) →
      held busy guard q = false ∧ ∃ before after, ps = before ++ q :: after ∧ rest = before ++ after ∧
        ∀ p ∈ before, held busy guard p = true
  | [], q, rest, h => by simp [takeInput] at h
  | p :: ps, q, rest, h => by
    unfold takeInput at h
    split at h
    · rename_i hp
      cases ht : takeInput busy guard ps with
      | none => simp [ht] at h
      | some x =>
        obtain ⟨q', r'⟩ := x
        simp only [ht, Option.some.injEq, Prod.mk.injEq] at h
        obtain ⟨rfl, rfl⟩ := h
        obtain ⟨hq, before, after, rfl, rfl, hb⟩ := takeInput_eq_some ht
        exact ⟨hq, p :: before, after, rfl, rfl, by simpa [hp] using hb⟩
    · rename_i hp
      simp only [Option.some.injEq, Prod.mk.injEq] at h
      obtain ⟨rfl, rfl⟩ := h
      exact ⟨by simpa using hp, [], ps, rfl, rfl, by simp⟩

/-- The scheduler serves nothing exactly when every input is held back. -/
theorem takeInput_eq_none {busy guard : Bool} :
    ∀ {ps : List Packet}, takeInput busy guard ps = none ↔ ∀ p ∈ ps, held busy guard p = true
  | [] => by simp [takeInput]
  | p :: ps => by
    unfold takeInput
    split
    · rename_i hp
      cases ht : takeInput busy guard ps with
      | none => simpa [hp] using takeInput_eq_none.mp ht
      | some x =>
        simp only [reduceCtorEq, List.mem_cons, forall_eq_or_imp, hp, true_and, false_iff]
        intro hall
        rw [takeInput_eq_none.mpr hall] at ht
        cases ht
    · rename_i hp
      simp [hp]

end Sys2Proof.Machine
end

