-- ==== Sys2Proof/Laws/Exec.lean ====
section
/-! SUPPORT. Every way an operation can answer a next state, once, for the proofs to cite in place of the meanings;
and what a step that answers a next state consists of. -/

namespace Sys2Proof.Machine

/-- Everything an operation does when it answers a next state. One constructor per way, named after the operation. -/
inductive Effect (s : State) : Instr → State → Prop where
  | rxStart : s.WordReady → Effect s .rxStart s.enterWord
  | rxData (lvl : Level) : s.busy = true → 1 ≤ s.bi.toNat → s.bi.toNat ≤ 8 →
      Effect s (.rxData lvl) (s.clearTick.takeSample lvl)
  | parityError (lvl : Level) : s.busy = true → s.bi.toNat = 9 → parityOk s.par lvl = false →
      Effect s (.rxParity lvl) (s.clearTick.setWi 0).leaveWord
  | sentinelWord (lvl : Level) : s.busy = true → s.bi.toNat = 9 → parityOk s.par lvl = true → s.wi.toNat = 0 →
      Effect s (.rxParity lvl) (s.clearTick.setWi (if ~~~s.acc = 0x0F#8 then 1 else 0)).leaveWord
  | payloadWord (lvl : Level) : s.busy = true → s.bi.toNat = 9 → parityOk s.par lvl = true → 1 ≤ s.wi.toNat →
      s.wi.toNat ≤ 23 →
      Effect s (.rxParity lvl) ((s.clearTick.putByte (s.wi.toNat - 1) (~~~s.acc)).setWi (s.wi + 1)).leaveWord
  | terminatorWord (lvl : Level) : s.busy = true → s.bi.toNat = 9 → parityOk s.par lvl = true → s.wi.toNat = 24 →
      Effect s (.rxParity lvl) ((if s.mode = .onDemand then s.clearTick.closePath else s.clearTick).setWi 0).leaveWord
  | wSentinel (d : Byte) : s.wi.toNat = 0 → Effect s (.wSentinel d) (s.setWi (if d = 0x0F#8 then 1 else 0))
  | wStore (d : Byte) : 1 ≤ s.wi.toNat → s.wi.toNat ≤ 23 →
      Effect s (.wStore d) ((s.putByte (s.wi.toNat - 1) d).setWi (s.wi + 1))
  | wTerm (d : Byte) : s.wi.toNat = 24 →
      Effect s (.wTerm d) ((if s.mode = .onDemand then s.closePath else s).setWi 0)
  | fallingEdge : Effect s (.edgeIgn .fall) s.clearEdges
  | unusableEdge : ¬ s.WordReady → Effect s (.edgeIgn .rise) s
  | tickIgn (lvl : Level) : s.busy = false → Effect s (.tickIgn lvl) s
  | begin (pin : Nat) (m : Mode) : s.begun = false → Effect s (.begin pin m) (s.initialise pin m)
  | waitDone (timeout now : Ms) : s.CommandReady → s.mode = .continuous →
      Effect s (.waitframe timeout now) (s.reply (.bit true))
  | waitArmed (timeout now : Ms) : s.CommandReady → s.mode = .onDemand →
      Effect s (.waitframe timeout now) (s.armWait timeout now)
  | pollComplete (now : Ms) : s.begun = true → s.busy = false → s.wf.isSome = true → s.rxEn = false →
      Effect s (.wfPoll now) (s.endWait.reply (.bit true))
  | pollTimeout (now : Ms) (wt : Wait) : s.begun = true → s.busy = false → s.wf = some wt → s.rxEn = true →
      wt.expired now = true → Effect s (.wfPoll now) (s.endWait.reply (.bit false))
  | pollAgain (now : Ms) (wt : Wait) : s.begun = true → s.busy = false → s.wf = some wt → s.rxEn = true →
      wt.expired now = false → Effect s (.wfPoll now) s
  | read (i : Instr) (r : Reply) (t : State) : isRead i = true → s.CommandReady → (t = s ∨ t = s.setGuard false) →
      Effect s i (t.reply r)

theorem canStart_iff {s : State} : s.selection.canStart = true ↔ s.WordReady := by
  simp [Selection.canStart, State.selection, State.WordReady, and_assoc]

/-- A read's raw value leaves the state, but for the guard. -/
theorem reply_rawValue {i : Instr} {idx : Nat} {s t : State} {f : BitVec 16 → BitVec 16} (hi : isRead i = true)
    (hs : s.CommandReady)
    (h : (match rawValue idx s with
      | .ok (v, u) => (.next (u.reply (.value (f v))) : Result)
      | .error e => .fault e) = .next t) : Effect s i t := by
  cases hr : rawValue idx s with
  | error e => rw [hr] at h; cases h
  | ok x =>
    obtain ⟨v, u⟩ := x
    rw [hr] at h
    cases h
    exact .read i _ u hi hs (rawValue_ok hr)

theorem reply_flag {i : Instr} {k : Nat} {s t : State} (hi : isRead i = true) (hs : s.CommandReady)
    (h : replyFlag k s = .next t) : Effect s i t := by
  rw [replyFlag_eq] at h
  cases h
  exact .read i _ s hi hs (.inl rfl)

/-- When an operation answers a next state, that state is one of its effects. -/
theorem exec_next {i : Instr} {s t : State} (h : exec i s = .next t) : Effect s i t := by
  cases i with
  | rxStart =>
    simp only [exec, execRxStart] at h
    split_ifs at h with hs
    cases h
    exact .rxStart (canStart_iff.mp hs)
  | rxData lvl =>
    simp only [exec, execRxData] at h
    split_ifs at h with hs
    cases h
    exact .rxData lvl hs.1 hs.2.1 hs.2.2
  | rxParity lvl =>
    simp only [exec, execRxParity] at h
    split_ifs at h with hs hp
    · rcases dispatchWord_cases (~~~s.acc) s.clearTick with ⟨hw, e⟩ | ⟨hw, hw', e⟩ | ⟨hw, e⟩ | ⟨_, e⟩ <;>
        rw [e] at h <;> cases h
      · exact .sentinelWord lvl hs.1 hs.2 hp hw
      · exact .payloadWord lvl hs.1 hs.2 hp hw hw'
      · exact .terminatorWord lvl hs.1 hs.2 hp hw
    · cases h
      exact .parityError lvl hs.1 hs.2 (by simpa using hp)
  | wSentinel d =>
    simp only [exec, execWSentinel] at h
    split_ifs at h with hw hd <;> cases h
    · simpa [hd] using Effect.wSentinel (s := s) d hw
    · simpa [hd, State.raiseReceiveError] using Effect.wSentinel (s := s) d hw
  | wStore d =>
    by_cases hw : 1 ≤ s.wi.toNat ∧ s.wi.toNat ≤ 23
    · rw [exec, execWStore_eq hw.1 hw.2] at h
      cases h
      exact .wStore d hw.1 hw.2
    · simp only [exec, execWStore, hw, if_false] at h
      cases h
  | wTerm d =>
    simp only [exec, execWTerm] at h
    split_ifs at h with hw hm <;> cases h
    · simpa [hm] using Effect.wTerm (s := s) d hw
    · simpa [hm] using Effect.wTerm (s := s) d hw
  | edgeIgn e =>
    cases e with
    | rise =>
      simp only [exec, execEdgeIgn] at h
      split_ifs at h with hs
      cases h
      exact .unusableEdge fun hr => hs (canStart_iff.mpr hr)
    | fall => cases h; exact .fallingEdge
  | tickIgn lvl =>
    simp only [exec, execTickIgn] at h
    split_ifs at h with hb
    cases h
    exact .tickIgn lvl (by simpa using hb)
  | begin pin m =>
    simp only [exec, execBegin] at h
    split_ifs at h with hb
    cases h
    exact .begin pin m (by simpa using hb)
  | waitframe timeout now =>
    rw [exec, execWaitframe, ifCommandReady_eq_next] at h
    obtain ⟨h1, h2, h3, h⟩ := h
    cases hm : s.mode <;> rw [hm] at h <;> cases h
    · exact .waitDone timeout now ⟨h1, h2, h3⟩ hm
    · exact .waitArmed timeout now ⟨h1, h2, h3⟩ hm
  | wfPoll now =>
    simp only [exec, execWfPoll] at h
    cases h1 : s.begun <;> simp only [h1, Bool.not_false, Bool.not_true, if_true, if_false, Bool.false_eq_true] at h
    · cases h
    cases h2 : s.busy <;> simp only [h2, if_true, if_false, Bool.false_eq_true] at h
    · cases hw : s.wf with
      | none => rw [hw] at h; cases h
      | some wt =>
        rw [hw] at h
        cases h
        rcases s.pollTurn_cases wt now with ⟨h3, e⟩ | ⟨h3, he, e⟩ | ⟨h3, he, e⟩ <;> rw [e]
        · exact .pollComplete now h1 h2 (by simp [hw]) h3
        · exact .pollTimeout now wt h1 h2 hw h3 he
        · exact .pollAgain now wt h1 h2 hw h3 he
    · cases h
  | getchraw idx =>
    rw [exec, execGetchraw, ifCommandReady_eq_next] at h
    exact reply_rawValue (f := fun v => v) rfl ⟨h.1, h.2.1, h.2.2.1⟩ h.2.2.2
  | getch idx =>
    rw [exec, execGetch, ifCommandReady_eq_next] at h
    exact reply_rawValue (f := rescale) rfl ⟨h.1, h.2.1, h.2.2.1⟩ h.2.2.2
  | sigloss =>
    rw [exec, execSigloss, ifCommandReady_eq_next] at h
    exact reply_flag rfl ⟨h.1, h.2.1, h.2.2.1⟩ h.2.2.2
  | failsafe =>
    rw [exec, execFailsafe, ifCommandReady_eq_next] at h
    exact reply_flag rfl ⟨h.1, h.2.1, h.2.2.1⟩ h.2.2.2

/-! ### Steps -/

/-- One event that answers a next state is the decoded operation's effect on the delivered state. -/
theorem perform_next {p : Packet} {s t : State} (h : perform p s = .next t) :
    ∃ i, decode s.selection p = .ok i ∧ exec i (s.deliver p) = .next t := by
  unfold perform at h
  split at h
  · exact ⟨_, ‹_›, h⟩
  · cases h

/-- A relation that holds of every event, is reflexive and is transitive holds of serving an input. -/
theorem serve_next {Q : State → State → Prop} (refl : ∀ s, Q s s) (trans : ∀ a b c, Q a b → Q b c → Q a c)
    (event : ∀ p s t, perform p s = .next t → Q s t) {p : Packet} {s t : State} (h : serve p s = .next t) : Q s t := by
  have all : ∀ (es : List Packet) (a b : State), performAll es a = .next b → Q a b := by
    intro es
    induction es with
    | nil => intro a b h; cases h; exact refl _
    | cons e es ih =>
      intro a b h
      obtain ⟨u, hu, hb⟩ := Result.andThen_eq_next.mp h
      exact trans _ _ _ (event _ _ _ hu) (ih _ _ hb)
  cases p <;> simp only [serve] at h
  · exact event _ _ _ h
  · exact event _ _ _ h
  · simp only [performWord] at h
    split_ifs at h
    exact all _ _ _ h
  · exact event _ _ _ h
  · exact event _ _ _ h

/-- A step that answers a next state serves one input. -/
theorem step_next {s t : State} (h : step s = .next t) :
    ∃ p rest, takeInput s.busy s.guard s.inputs = some (p, rest) ∧ serve p (s.withInputs rest) = .next t := by
  unfold step at h
  split at h
  · exact ⟨_, _, ‹_›, h⟩
  · cases h

/-- A run of n + 1 steps is a step and a run of n. -/
theorem core_run_succ (n : Nat) (s : State) :
    Sys2Proof.core.run (n + 1) s = Result.andThen (step s) (fun t => Sys2Proof.core.run n t) := by
  refine (Host.Core.run.eq_2 Sys2Proof.core s n).trans ?_
  cases h : step s <;> (have h' : Sys2Proof.core.step s = _ := h; rw [h']; rfl)

/-- A composition that only goes on is its first part. -/
theorem Result.andThen_self (r : Result) : (r.andThen fun t => .next t) = r := by
  cases r <;> rfl

theorem Result.andThen_assoc (r : Result) (k l : State → Result) :
    (r.andThen k).andThen l = r.andThen fun t => (k t).andThen l := by
  cases r <;> rfl

theorem performAll_append (a b : List Packet) (s : State) :
    performAll (a ++ b) s = Result.andThen (performAll a s) (performAll b) := by
  induction a generalizing s with
  | nil => rfl
  | cons p a ih =>
    simp only [List.cons_append, performAll, Result.andThen_assoc]
    exact congrArg _ (funext fun t => ih t)

end Sys2Proof.Machine
end

