-- ==== Sys2Proof/Laws/PerInstr.lean ====
section
/-! SUPPORT. Statements made of every operation, one lemma per constructor: the packet an operation is encoded as has
the format its row of spec/opcode_table.json gives. -/

namespace Sys2Proof.Laws.EncodeFormat

/-- The packet of an operation has its row's format. -/
def Statement (i : Instr) : Prop := (encode i).format = i.rowFormat

theorem rxStart : Statement .rxStart := rfl

theorem rxData (lvl : Level) : Statement (.rxData lvl) := rfl

theorem rxParity (lvl : Level) : Statement (.rxParity lvl) := rfl

theorem wSentinel (d : Byte) : Statement (.wSentinel d) := rfl

theorem wStore (d : Byte) : Statement (.wStore d) := rfl

theorem wTerm (d : Byte) : Statement (.wTerm d) := rfl

theorem edgeIgn (e : Edge) : Statement (.edgeIgn e) := by cases e <;> rfl

theorem tickIgn (lvl : Level) : Statement (.tickIgn lvl) := rfl

theorem begin (pin : Nat) (m : Mode) : Statement (.begin pin m) := rfl

theorem waitframe (timeout now : Ms) : Statement (.waitframe timeout now) := rfl

theorem wfPoll (now : Ms) : Statement (.wfPoll now) := rfl

theorem getchraw (idx : Nat) : Statement (.getchraw idx) := rfl

theorem getch (idx : Nat) : Statement (.getch idx) := rfl

theorem sigloss : Statement .sigloss := rfl

theorem failsafe : Statement .failsafe := rfl

end Sys2Proof.Laws.EncodeFormat
end

