-- ==== Sys2Proof/Tests/Slice0.lean ====
section
/-! SUPPORT. Small tests with expected results from spec/95_test_vectors.md, each constructor's decoding from a word
written out from spec/30_encoding.md, and for every statement a state and operands that meet its hypotheses. -/

namespace Sys2Proof.Machine.Tests

/-! ### Helpers -/

/-- A frame buffer from its bytes, offset 0 first. -/
def buffer (bs : List Byte) : List Host.Cell :=
  (bs.zipIdx.map fun x => (x.2, x.1)).filter fun c => c.2 != Memory.unlisted

/-- The payload of frame F1 of spec/95_test_vectors.md. -/
def f1 : List Byte :=
  [0xAD, 0xA0, 0x38, 0xF8, 0x00, 0x08, 0x80, 0xFF, 0x57, 0x55, 0x55, 0xE8] ++
  [0x4B, 0x9F, 0xFA, 0xD6, 0xC7, 0xBE, 0xF6, 0xB9, 0xEF, 0x7D, 0x05]

/-- The sixteen channel values of F1. -/
def f1Channels : Nat → BitVec 11 := fun c =>
  ([173, 1812, 992, 1024, 0, 2047, 1365, 682, 1000, 1001, 1002, 1003, 1004, 1005, 1006, 1007] : List (BitVec 11)).getD
    (c - 1) 0

/-- A begun block in continuous mode, idle, that holds F1. -/
def idle : State :=
  { State.reset with
    begun := true, rxEn := true, par := 0xFF, watchedPin := some 4, tickPeriod := some 10, payload := buffer f1 }

/-- The same in on-demand mode, the path closed. -/
def closed : State := { idle with mode := .onDemand, rxEn := false }

/-- The same with the path open and a wait of 100 ms armed at 5000. -/
def waiting : State := { closed with rxEn := true, wf := some ⟨5000, 100⟩ }

/-- A word in progress: n - 1 samples taken, all `L`. -/
def inWord (n : BitVec 4) : State := { idle with busy := true, bi := n, edgePend := true }

/-- The last result given. -/
def lastReply : Result → Option Reply
  | .next t => t.returned.getLast?
  | .fault _ => none
  | .refused _ => none

/-- A next state with a property. -/
def nextHas (f : State → Bool) : Result → Bool
  | .next t => f t
  | .fault _ => false
  | .refused _ => false

/-- Refused by a named reason. -/
def refusedAs (r : Refusal) : Result → Bool
  | .next _ => false
  | .fault _ => false
  | .refused r' => r == r'

theorem idle_inv : idle.Inv := by constructor <;> decide
theorem closed_inv : closed.Inv := by constructor <;> decide
theorem waiting_inv : waiting.Inv := by constructor <;> decide
theorem inWord_inv : (inWord 9).Inv := by constructor <;> decide

/-! ### Well-formedness: a channel index outside 8 bits is refused (R102) -/

theorem test_wellFormed_getchraw : (Instr.getchraw 255).wellFormed = true ∧ (Instr.getchraw 256).wellFormed = false := by
  decide

theorem test_wellFormed_getch : (Instr.getch 255).wellFormed = true ∧ (Instr.getch 256).wellFormed = false := by
  decide

/-! ### Decoding: words written out from R90, R91, R101 -/

theorem test_decode_rxStart : decode idle.selection (.lineEvent 0b01#2) = .ok .rxStart := by rfl
theorem test_decode_edgeIgn_rise : decode closed.selection (.lineEvent 0b01#2) = .ok (.edgeIgn .rise) := by rfl
theorem test_decode_edgeIgn_fall : decode idle.selection (.lineEvent 0b10#2) = .ok (.edgeIgn .fall) := by rfl
theorem test_decode_noTransition : decode idle.selection (.lineEvent 0b11#2) = .error .noTransition := by rfl
theorem test_decode_rxData : decode (inWord 8).selection (.lineCell 1#1) = .ok (.rxData .H) := by rfl
theorem test_decode_rxParity : decode (inWord 9).selection (.lineCell 0#1) = .ok (.rxParity .L) := by rfl
theorem test_decode_tickIgn : decode idle.selection (.lineCell 1#1) = .ok (.tickIgn .H) := by rfl

/-- R-1. -/
theorem test_decode_wSentinel : decode idle.selection (.lineWord 0b100001111100#12) = .ok (.wSentinel 0x0F) := by rfl

/-- R-10, with the stop cells as the line left them: R94 does not look at them. -/
theorem test_decode_wStore :
    decode { idle with wi := 23 }.selection (.lineWord 0b111000010011#12) = .ok (.wStore 0xBC) := by rfl

/-- R-5. -/
theorem test_decode_wTerm :
    decode { idle with wi := 24 }.selection (.lineWord 0b101111111000#12) = .ok (.wTerm 0x01) := by rfl

/-- R-11: one cell inverted. -/
theorem test_decode_badParity :
    decode { idle with wi := 1 }.selection (.lineWord 0b111100010000#12) = .error .badParity := by rfl

theorem test_decode_begin : decode idle.selection (.command 0x0001#16 4 0 0) = .ok (.begin 4 .onDemand) := by rfl
theorem test_decode_waitframe :
    decode idle.selection (.command 0x1000#16 0 100 5000) = .ok (.waitframe 100 5000) := by rfl
theorem test_decode_wfPoll : decode idle.selection (.poll 5100) = .ok (.wfPoll 5100) := by rfl
theorem test_decode_getchraw : decode idle.selection (.command 0x20FF#16 0 0 0) = .ok (.getchraw 255) := by rfl
theorem test_decode_getch : decode idle.selection (.command 0x3013#16 0 0 0) = .ok (.getch 19) := by rfl
theorem test_decode_sigloss : decode idle.selection (.command 0x4000#16 0 0 0) = .ok .sigloss := by rfl
theorem test_decode_failsafe : decode idle.selection (.command 0x5000#16 0 0 0) = .ok .failsafe := by rfl

/-- K-16, K-17, K-18, and `BEGIN` with an argument bit above bit 0 (R101, R106). -/
theorem test_decode_illegal :
    decode idle.selection (.command 0x6000#16 0 0 0) = .error .illegalOpcode ∧
    decode idle.selection (.command 0x2101#16 0 0 0) = .error .reservedBits ∧
    decode idle.selection (.command 0x4001#16 0 0 0) = .error .badArgument ∧
    decode idle.selection (.command 0x0002#16 0 0 0) = .error .badArgument := ⟨rfl, rfl, rfl, rfl⟩

/-! ### One operation at a time -/

/-- R131. -/
theorem test_rxStart : nextHas (fun t => t.busy && t.bi == 1 && t.acc == 0x00 && t.par == 0xFF && t.wi == 7)
    (exec .rxStart { idle with acc := 0x5A, par := 0x00, wi := 7 }) = true := by decide

/-- R-5, its eighth tick. -/
theorem test_rxData : nextHas (fun t => t.bi == 9 && t.acc == 0xFE && t.par == 0x00)
    (exec (.rxData .H) { inWord 8 with acc := 0x7E, par := 0xFF }) = true := by decide

/-- R-14: a glitch. -/
theorem test_rxParity_bad : nextHas (fun t => !t.busy && !t.edgePend && t.wi == 0 && t.payload == buffer f1)
    (exec (.rxParity .L) { inWord 9 with wi := 5 }) = true := by decide

/-- R-5 at word 1. -/
theorem test_rxParity_good : nextHas (fun t => !t.busy && t.wi == 2 && t.byteAt 0 == 0x01)
    (exec (.rxParity .L) { inWord 9 with acc := 0xFE, par := 0x00, wi := 1 }) = true := by decide

/-- R-16. -/
theorem test_wSentinel : nextHas (fun t => t.wi == 1) (exec (.wSentinel 0x0F) idle) = true := by decide

/-- R-17. -/
theorem test_wSentinel_bad : nextHas (fun t => t.wi == 0) (exec (.wSentinel 0xF0) idle) = true := by decide

/-- R-20. -/
theorem test_wStore_first : nextHas (fun t => t.wi == 2 && t.byteAt 0 == 0xAD && t.byteAt 1 == 0xA0)
    (exec (.wStore 0xAD) { idle with wi := 1 }) = true := by decide

/-- R-24: the flags byte is stored whole. -/
theorem test_wStore_flags : nextHas (fun t => t.wi == 24 && t.byteAt 22 == 0xF5 && t.byteAt 21 == 0x7D)
    (exec (.wStore 0xF5) { idle with wi := 23 }) = true := by decide

/-- R-25. -/
theorem test_wTerm_continuous : nextHas (fun t => t.wi == 0 && t.rxEn) (exec (.wTerm 0x00) { idle with wi := 24 }) = true := by
  decide

/-- R-27. -/
theorem test_wTerm_onDemand : nextHas (fun t => t.wi == 0 && !t.rxEn)
    (exec (.wTerm 0xA7) { waiting with wi := 24 }) = true := by decide

/-- R-30. -/
theorem test_edgeIgn_rise : exec (.edgeIgn .rise) (inWord 3) = .next (inWord 3) := by rfl

/-- R-31. -/
theorem test_edgeIgn_fall : nextHas (fun t => t == { inWord 3 with edgePend := false })
    (exec (.edgeIgn .fall) (inWord 3)) = true := by decide

/-- R-32. -/
theorem test_tickIgn : exec (.tickIgn .H) { idle with wi := 3 } = .next { idle with wi := 3 } := by rfl

/-- K-2. -/
theorem test_begin : nextHas (fun t => t.begun && t.mode == .onDemand && !t.rxEn && t.wi == 0 && t.watchedPin == some 4)
    (exec (.begin 4 .onDemand) { State.reset with wi := 9 }) = true := by decide

/-- K-3. -/
theorem test_begin_twice : refusedAs .alreadyBegun (exec (.begin 4 .continuous) idle) = true := by decide

/-- K-5. -/
theorem test_waitframe_continuous : lastReply (exec (.waitframe 0 7) idle) = some (.bit true) := by decide

/-- K-6. -/
theorem test_waitframe_onDemand :
    exec (.waitframe 100 5000) closed = .next { closed with rxEn := true, wf := some ⟨5000, 100⟩ } := by rfl

/-- K-11, K-12, with `W_MS` = 32: 32 ms across the wrap of the clock are not more than 32, and 33 are. -/
theorem test_timedOut_wrap :
    timedOut 0xFFFFFFF0#32 32#32 0x10#32 = false ∧ timedOut 0xFFFFFFF0#32 32#32 0x11#32 = true := by decide

/-- K-10: completion is tested before the time. -/
theorem test_wfPoll_complete_first :
    lastReply (exec (.wfPoll 9999) { waiting with rxEn := false }) = some (.bit true) := by decide

/-- X-6: three bytes joined. -/
theorem test_getchraw : lastReply (exec (.getchraw 6) idle) = some (.value 2047) := by decide

/-- X-5: the mask at work. -/
theorem test_getchraw_mask : lastReply (exec (.getchraw 5) idle) = some (.value 0) := by decide

/-- P1: channel 2, raw 1812. -/
theorem test_getch : lastReply (exec (.getch 2) idle) = some (.value 2012) := by decide

/-- X-19. -/
theorem test_getch_invalid : lastReply (exec (.getch 19) idle) = some (.value 880) := by decide

/-- X-16, X-17. -/
theorem test_sigloss : lastReply (exec .sigloss idle) = some (.bit true) := by decide
theorem test_failsafe : lastReply (exec .failsafe idle) = some (.bit false) := by decide

/-- R-22: a whole word with one cell wrong, as one step. -/
theorem test_word_step : nextHas (fun t => t.wi == 0 && !t.busy && t.byteAt 4 == 0x00)
    (step { idle with wi := 5, inputs := [.lineWord 0b111100010000#12] }) = true := by decide

/-- R-29: the path closed, ten ignored events. -/
theorem test_word_ignored : nextHas (fun t => t.wi == 7 && !t.busy && t.payload == buffer f1)
    (step { closed with wi := 7, inputs := [goodWord 0x55] }) = true := by decide

/-- A table word run as the first input after power-on: a read, a poll, `BEGIN`. -/
theorem test_withFetchWord_getchraw :
    (lastReply (step (State.reset.withFetchWord 16 0x2000))).isSome = true := by decide
theorem test_withFetchWord_poll :
    nextHas (fun _ => true) (step (State.reset.withFetchWord 32 0)) = true := by decide
theorem test_withFetchWord_begin :
    nextHas (fun t => t.begun && t.mode == .onDemand) (step (State.reset.withFetchWord 16 1)) = true := by decide

/-! ### Witnesses: for each statement with hypotheses, a state and operands that meet them -/

theorem witness_PowerOnAdmitsOnlyBegin :
    isCommand .sigloss = true ∧ ∀ pin m, Instr.sigloss ≠ .begin pin m := ⟨rfl, nofun⟩

theorem witness_BeginEstablishesInitialState : State.reset.begun = false ∧ idle.begun = true := by decide

theorem witness_BeginFillsBufferWithInitialBytes : ∃ t, exec (.begin 4 .onDemand) State.reset = .next t := ⟨_, rfl⟩

theorem witness_RisingEdgeStartsWord :
    (idle.begun = true ∧ idle.rxEn = true ∧ idle.busy = false) ∧
    State.reset.selection.begun = false ∧ closed.selection.rxEn = false ∧ (inWord 1).selection.busy = true := by decide

theorem witness_DataSampleEffect :
    ((inWord 1).busy = true ∧ 1 ≤ (inWord 1).bi.toNat ∧ (inWord 1).bi.toNat ≤ 8) ∧
    ((inWord 8).busy = true ∧ 1 ≤ (inWord 8).bi.toNat ∧ (inWord 8).bi.toNat ≤ 8) := by decide

theorem witness_ParityCheckAndDispatch :
    ((inWord 9).busy = true ∧ (inWord 9).bi.toNat = 9) ∧ ((inWord 9).par ≠ 0x00#8 ↔ Level.H = .H) ∧
    ¬ ((inWord 9).par ≠ 0x00#8 ↔ Level.L = .H) := by decide

theorem witness_GoodParityCompletes :
    ((inWord 9).busy = true ∧ (inWord 9).bi.toNat = 9 ∧ ((inWord 9).par ≠ 0x00#8 ↔ Level.H = .H)) ∧
    (inWord 9).wi = 0 ∧ 1 ≤ { inWord 9 with wi := 1 }.wi.toNat ∧ { inWord 9 with wi := 23 }.wi.toNat ≤ 23 ∧
    { inWord 9 with wi := 24 }.wi = 24 := by decide

theorem witness_SentinelWordEffect : idle.wi = 0 := by decide

theorem witness_PayloadWordEffect :
    (1 ≤ { idle with wi := 1 }.wi.toNat ∧ { idle with wi := 1 }.wi.toNat ≤ 23) ∧
    (1 ≤ { idle with wi := 23 }.wi.toNat ∧ { idle with wi := 23 }.wi.toNat ≤ 23) := by decide

theorem witness_TerminatorWordEffect : { idle with wi := 24 }.wi = 24 := by decide

theorem witness_UnusableRisingEdgeIgnored :
    State.reset.begun = false ∧ closed.rxEn = false ∧ (inWord 1).busy = true := by decide

theorem witness_IdleTickIgnored : idle.busy = false ∧ idle.selection.busy = false := by decide

theorem witness_ProportionalChannelRead :
    idle.CommandReady ∧
    (1 ≤ 1 ∧ 1 ≤ 16 ∧ layoutTable[1 - 1]? = some ⟨0, 0, 8, none⟩) ∧
    (1 ≤ 16 ∧ 16 ≤ 16 ∧ layoutTable[16 - 1]? = some ⟨20, 5, 3, none⟩) := by decide

theorem witness_BinaryChannelRead : idle.CommandReady ∧ idle.byteAt 22 = 0x05 := by decide

theorem witness_InvalidIndexReadsZero : idle.CommandReady ∧ (0 = 0 ∨ 19 ≤ 0) ∧ (19 = 0 ∨ 19 ≤ 19) := by decide

theorem witness_ScaledChannelRead : idle.guard = false ∧ idle.CommandReady := by decide

theorem witness_ScaleIsMonotone : (2046#16).toNat ≤ (2047#16).toNat ∧ (2047#16).toNat ≤ 2047 := by decide

theorem witness_SignalLossRead : idle.CommandReady ∧ idle.byteAt 22 = 0x05 := by decide

theorem witness_FailsafeRead : closed.CommandReady ∧ closed.byteAt 22 = 0x05 := by decide

theorem witness_ExtractionReadsBitString :
    closed.guard = false ∧ closed.CommandReady ∧ (1 ≤ 1 ∧ 1 ≤ 16) ∧ (1 ≤ 16 ∧ 16 ≤ 16) := by decide

set_option maxRecDepth 20000 in
theorem witness_PackedChannelsRoundTrip :
    idle.guard = false ∧ idle.CommandReady ∧
    ∀ n, n < 176 → idle.stringBit n = (f1Channels (n / 11 + 1)).getLsbD (n % 11) := ⟨rfl, by decide, by decide⟩

theorem witness_ReadsDependOnBufferAlone :
    isRead (.getch 6) = true ∧ idle.guard = false ∧ closed.guard = false ∧ idle.CommandReady ∧ closed.CommandReady ∧
    ∀ k, k < 23 → idle.byteAt k = closed.byteAt k := ⟨rfl, rfl, rfl, by decide, by decide, fun _ _ => rfl⟩

theorem witness_ReservedFlagBitsUnread :
    isRead (.getchraw 18) = true ∧ idle.guard = false ∧ idle.CommandReady ∧
    ∀ k, k < 4 → (0xF5#8).getLsbD k = (idle.byteAt 22).getLsbD k := ⟨rfl, rfl, by decide, by decide⟩

theorem witness_ContinuousWaitReturnsAtOnce : idle.CommandReady ∧ idle.mode = .continuous := by decide

theorem witness_OnDemandWaitArms : closed.CommandReady ∧ closed.mode = .onDemand := by decide

/-- A wait with timeout 0 armed at 0. -/
def waitingZero : State := { waiting with wf := some ⟨0, 0⟩ }

/-- K-9; then K-14, one past the limit, and K-13, at the limit, with the wait armed at 0, at every width of the clock. -/
theorem witness_PollEndsOrGoesOn :
    (waitingZero.begun = true ∧ waitingZero.busy = false ∧ waitingZero.wf = some ⟨0, 0⟩) ∧
    { waitingZero with rxEn := false }.rxEn = false ∧ waitingZero.rxEn = true ∧
    (0 : Ms).toNat < ((1 : Ms).toNat + 2 ^ Config.wMs - (0 : Ms).toNat) % 2 ^ Config.wMs ∧
    ¬ (0 : Ms).toNat < ((0 : Ms).toNat + 2 ^ Config.wMs - (0 : Ms).toNat) % 2 ^ Config.wMs := by
  refine ⟨⟨rfl, rfl, rfl⟩, rfl, rfl, ?_, by simp⟩
  have h : 1 < 2 ^ Config.wMs := Nat.one_lt_two_pow (by simp)
  simp [Nat.mod_eq_of_lt h]

/-- The table of legal command words, as the statement writes it. -/
abbrev legalWord (cw : BitVec 16) : Prop :=
  cw &&& 0xFFFE#16 = 0x0000#16 ∨ cw = 0x1000#16 ∨ cw &&& 0xFF00#16 = 0x2000#16 ∨ cw &&& 0xFF00#16 = 0x3000#16 ∨
    cw = 0x4000#16 ∨ cw = 0x5000#16

/-- The first words past `BEGIN`'s, past a read's and past the last opcode; then K-4, K-3, K-15. -/
theorem witness_OutOfSequenceCommandsRefused :
    (idle.busy = false ∧ { idle with inputs := [.command 0x6000#16 0 0 0] }.inputs = [.command 0x6000#16 0 0 0] ∧
      ¬ legalWord 0x6000#16 ∧ ¬ legalWord 0x0002#16 ∧ ¬ legalWord 0x2100#16 ∧ ¬ legalWord 0xFFFF#16) ∧
    (isCommand (.getchraw 1) = true ∧ State.reset.begun = false) ∧ idle.begun = true ∧
    (isCommand (.getchraw 1) = true ∧ waiting.begun = true ∧ waiting.busy = false ∧ waiting.wf.isSome = true) :=
  ⟨⟨rfl, rfl, by decide, by decide, by decide, by decide⟩, ⟨rfl, rfl⟩, rfl, rfl, rfl, rfl, rfl⟩

theorem witness_DecodeInvertsEncode :
    ((Instr.getchraw 255).wellFormed = true ∧ idle.selection.selects (.getchraw 255) = true) ∧
    (Instr.wellFormed (.rxData .H) = true ∧ (inWord 8).selection.selects (.rxData .H) = true) ∧
    (Instr.wellFormed (.wStore 0xFF) = true ∧ { idle with wi := 23 }.selection.selects (.wStore 0xFF) = true) := by decide

theorem witness_DecodeGivesSelectedOperation :
    decode idle.selection (.lineWord 0b100001111111#12) = .ok (.wSentinel 0x0F) ∧
    decode idle.selection (.command 0x30FF#16 1 2 3) = .ok (.getch 255) := ⟨rfl, rfl⟩

theorem witness_ParityDetectsSingleCellErrors : (1 ≤ 1 ∧ 1 ≤ 9) ∧ (1 ≤ 9 ∧ 9 ≤ 9) ∧ (1 ≤ 8 ∧ 8 < 9 ∧ 9 ≤ 9) := by decide

theorem witness_StepRunsDecodedOperation :
    { idle with inputs := [.poll 0, .lineCell 1] }.inputs = .poll 0 :: [.lineCell 1] ∧
    held idle.busy idle.guard (.poll 0) = false ∧ (Packet.poll 0).format ≠ .lineWord ∧
    decode idle.selection (.poll 0) = .ok (.wfPoll 0) := ⟨rfl, rfl, by decide, rfl⟩

theorem witness_WordStepRunsDecodedOperation :
    { idle with inputs := [goodWord 0x0F] }.inputs = .lineWord (wordCells 0x0F) :: [] ∧ idle.guard = false ∧
    decode idle.selection (.lineWord (wordCells 0x0F)) = .ok (.wSentinel 0x0F) := ⟨rfl, rfl, rfl⟩

theorem witness_SamplesAccumulate : idle.WordReady ∧ waiting.WordReady := by decide

/-- Word indices 0, 1, 23 and 24, a good word and one with bad parity. -/
theorem witness_WordStepFollowsTransitionTable :
    (∀ w ∈ [0#5, 1#5, 23#5, 24#5],
      { idle with wi := w }.WordReady ∧ { idle with wi := w }.guard = false ∧ { idle with wi := w }.wi.toNat ≤ 24) ∧
    (∀ cells ∈ [0b100001111100#12, 0b111100010000#12], cellLevel cells 0 = .H) ∧
    oddHigh (samples 0b100001111100#12) = true ∧ oddHigh (samples 0b111100010000#12) = false ∧
    { idle with inputs := [.lineWord 0b111100010000#12] }.inputs = .lineWord 0b111100010000#12 :: [] := by decide

theorem witness_WordStepEqualsTenEventSteps :
    { idle with wi := 24 }.WordReady ∧ { idle with wi := 24 }.guard = false ∧ { idle with wi := 24 }.wi.toNat ≤ 24 ∧
    cellLevel 0b100001111100#12 0 = .H := by decide

theorem witness_LateReadWaitsOutTheWord :
    waiting.WordReady ∧ waiting.guard = false ∧ waiting.wi.toNat ≤ 24 ∧ isMainPacket (.poll 5003) = true := by decide

theorem witness_BusyReceiverExcludesConsumer :
    (inWord 1).busy = true ∧ ∃ t, step { inWord 1 with inputs := [.poll 0, .lineCell 1] } = .next t := ⟨rfl, _, rfl⟩

theorem witness_TickStallIsStuck :
    { inWord 1 with inputs := [.poll 0] }.busy = true ∧
    ∀ p ∈ { inWord 1 with inputs := [.poll 0] }.inputs, isMainPacket p = true := by decide

theorem witness_EndOfInputs :
    ((inWord 1).inputs = [] ∧ (inWord 1).busy = true) ∧
    (waiting.inputs = [] ∧ waiting.busy = false ∧ waiting.wf.isSome = true) ∧
    (idle.inputs = [] ∧ idle.busy = false ∧ idle.wf = none) := by decide

theorem witness_StepKeepsInvariant :
    { idle with inputs := [.lineEvent 1] }.Inv ∧ ∃ t, step { idle with inputs := [.lineEvent 1] } = .next t :=
  ⟨by constructor <;> decide, _, rfl⟩

/-- Illegal word, before `BEGIN`, `BEGIN` twice, in a wait, a poll without one; and the three stuck ends. -/
theorem witness_StepStopsOnlyWhereSpecGivesNoStep :
    (idle.Inv ∧ step { idle with inputs := [.command 0x6000 0 0 0] } = .refused (.illegalInput .illegalOpcode)) ∧
    step { State.reset with inputs := [.command 0x4000 0 0 0] } = .refused .notBegun ∧
    step { idle with inputs := [.command 0x0000 0 0 0] } = .refused .alreadyBegun ∧
    step { waiting with inputs := [.command 0x2001 0 0 0] } = .refused .waitInProgress ∧
    step { idle with inputs := [.poll 0] } = .refused .noWait ∧
    ((inWord 9).Inv ∧ step (inWord 9) = .fault .tickStall) ∧ (waiting.Inv ∧ step waiting = .fault .waitUnfinished) ∧
    step idle = .fault .inputsUsedUp :=
  ⟨⟨idle_inv, rfl⟩, rfl, rfl, rfl, rfl, ⟨inWord_inv, rfl⟩, ⟨waiting_inv, rfl⟩, rfl⟩

theorem witness_PathEnableWriters :
    (∃ t, exec (.begin 4 .continuous) State.reset = .next t ∧ t.rxEn ≠ State.reset.rxEn) ∧
    (∃ t, exec (.waitframe 100 5000) closed = .next t ∧ t.rxEn ≠ closed.rxEn) ∧
    (∃ t, exec (.wTerm 0) { waiting with wi := 24 } = .next t ∧ t.rxEn ≠ waiting.rxEn) ∧
    (∃ t, exec (.rxParity .H) { inWord 9 with mode := .onDemand, wi := 24 } = .next t ∧ t.rxEn ≠ (inWord 9).rxEn) :=
  ⟨⟨_, rfl, by decide⟩, ⟨_, rfl, by decide⟩, ⟨_, rfl, by decide⟩, ⟨_, rfl, by decide⟩⟩

theorem witness_BufferWriters :
    (∃ t, exec (.wStore 0x99) { idle with wi := 23 } = .next t ∧ t.byteAt 22 ≠ idle.byteAt 22) ∧
    (∃ t, exec (.rxParity .H) { inWord 9 with wi := 1 } = .next t ∧ t.byteAt 0 ≠ (inWord 9).byteAt 0) ∧
    (∃ s t, exec (.begin 4 .continuous) s = .next t ∧ t.byteAt 22 ≠ s.byteAt 22) :=
  ⟨⟨_, rfl, by decide⟩, ⟨_, rfl, by decide⟩, ⟨State.reset.putByte 22 (~~~ Config.payloadInit 22), _, rfl, by
    show Memory.read 22 Memory.initial ≠ (State.reset.putByte 22 (~~~ Config.payloadInit 22)).byteAt 22
    rw [Memory.read_initial, State.putByte_byteAt]
    simp only [show 22 < 23 by omega, if_true]
    have h : ∀ b : Byte, b ≠ ~~~b := by decide
    exact h _⟩⟩

theorem witness_WordIndexWriters :
    (∃ t, exec (.wStore 0x99) { idle with wi := 23 } = .next t ∧ t.wi ≠ 23) ∧
    (∃ t, exec (.wTerm 0x00) { idle with wi := 24 } = .next t ∧ t.wi ≠ 24) ∧
    (∃ t, exec (.rxParity .L) { inWord 9 with wi := 5 } = .next t ∧ t.wi ≠ 5) ∧
    (∃ t, exec (.begin 4 .onDemand) { State.reset with wi := 9 } = .next t ∧ t.wi ≠ 9) :=
  ⟨⟨_, rfl, by decide⟩, ⟨_, rfl, by decide⟩, ⟨_, rfl, by decide⟩, ⟨_, rfl, by decide⟩⟩

theorem witness_ModeFixedAfterBegin :
    { closed with inputs := [.command 0x1000 0 100 5000] }.begun = true ∧
    ∃ t, step { closed with inputs := [.command 0x1000 0 100 5000] } = .next t := ⟨rfl, _, rfl⟩

theorem witness_ClosedPathKeepsBuffer :
    (closed.begun = true ∧ closed.rxEn = false ∧ closed.busy = false) ∧
    (∃ t, step { closed with inputs := [.lineWord 0b100001111100#12] } = .next t) ∧
    ∃ t, step { closed with inputs := [.command 0x1000 0 100 5000] } = .next t ∧ t.rxEn = true :=
  ⟨by decide, ⟨_, rfl⟩, ⟨_, rfl, rfl⟩⟩

/-- The bytes of a frame with the sentinel first. -/
def someFrame (n : Nat) : Byte := if n = 0 then 0x0F else BitVec.ofNat 8 n

theorem witness_PartialFrameIsVisible :
    idle.WordReady ∧ idle.guard = false ∧ idle.wi = 0 ∧ someFrame 0 = 0x0F#8 ∧ (0 ≤ 23 ∧ 23 ≤ 23) ∧
    { idle with inputs := (List.range 24).map (fun n => goodWord (someFrame n)) }.inputs =
      (List.range (23 + 1)).map (fun n => goodWord (someFrame n)) ++ [] := by
  refine ⟨by decide, rfl, rfl, rfl, by decide, (List.append_nil _).symm⟩

theorem witness_GoodFrameFillsBuffer :
    waiting.WordReady ∧ waiting.guard = false ∧ waiting.wi = 0 ∧ someFrame 0 = 0x0F#8 ∧
    { waiting with inputs := (List.range 25).map (fun n => goodWord (someFrame n)) ++ [Packet.poll 5003] }.inputs =
      (List.range 25).map (fun n => goodWord (someFrame n)) ++ [Packet.poll 5003] := by
  refine ⟨by decide, rfl, rfl, rfl, rfl⟩

/-- Failing at word 0 on the sentinel's value, and at words 0 and 24 on parity. -/
theorem witness_FailedWordAbandonsFrame :
    (idle.WordReady ∧ idle.guard = false ∧ idle.wi = 0) ∧ (0 < 24 → someFrame 0 = 0x0F#8) ∧ (0 ≤ 24 ∧ 24 ≤ 24) ∧
    cellLevel 0b111100010000#12 0 = .H ∧ oddHigh (samples 0b111100010000#12) = false ∧
    cellLevel 0b111110000100#12 0 = .H ∧ wordByte 0b111110000100#12 ≠ 0x0F#8 ∧
    { idle with inputs := (List.range 24).map (fun n => goodWord (someFrame n)) ++ [Packet.lineWord 0b111100010000#12] }.inputs =
      (List.range 24).map (fun n => goodWord (someFrame n)) ++ Packet.lineWord 0b111100010000#12 :: [] := by
  refine ⟨by decide, fun _ => rfl, by decide, rfl, rfl, rfl, by decide, rfl⟩

end Sys2Proof.Machine.Tests
end

section
/-! PROOFS. The receiver's operations (spec/40_receiver.md): what each one answers in a state that selects it, how the
line's packets decode, and the statements O4, O5, O8, O9, O10 and O11, assembled from these. -/

namespace Sys2Proof.Machine

/-! ### What a receiver operation answers in a state that selects it -/

theorem exec_rxStart_eq {s : State} (h : s.WordReady) : exec .rxStart s = .next s.enterWord :=
  if_pos (canStart_iff.mpr h)

theorem exec_rxData_eq {s : State} (lvl : Level) (hb : s.busy = true) (h1 : 1 ≤ s.bi.toNat) (h8 : s.bi.toNat ≤ 8) :
    exec (.rxData lvl) s = .next (s.clearTick.takeSample lvl) :=
  if_pos ⟨hb, h1, h8⟩

theorem exec_wSentinel_eq {s : State} (d : Byte) (h : s.wi.toNat = 0) :
    exec (.wSentinel d) s = .next (s.setWi (if d = 0x0F#8 then 1 else 0)) := by
  by_cases hd : d = 0x0F#8
  · simp [exec, execWSentinel, h, hd]
  · simp [exec, execWSentinel, h, hd, State.raiseReceiveError]

theorem exec_wStore_eq {s : State} (d : Byte) (h1 : 1 ≤ s.wi.toNat) (h23 : s.wi.toNat ≤ 23) :
    exec (.wStore d) s = .next ((s.putByte (s.wi.toNat - 1) d).setWi (s.wi + 1)) :=
  execWStore_eq h1 h23

theorem exec_wTerm_eq {s : State} (d : Byte) (h : s.wi.toNat = 24) :
    exec (.wTerm d) s = .next ((if s.mode = .onDemand then s.closePath else s).setWi 0) :=
  if_pos h

/-! ### The written-out form of a sample -/

theorem accAfter_eq (acc : BitVec 8) (bi : BitVec 4) (lvl : Level) :
    accAfter acc bi lvl = if lvl = .H then acc ||| BitVec.twoPow 8 (bi.toNat - 1) else acc := by
  cases lvl <;> rfl

theorem parityAfter_eq (par : BitVec 8) (lvl : Level) : parityAfter par lvl = if lvl = .H then ~~~par else par := by
  cases lvl <;> rfl

/-! ### How the line's packets decode -/

/-- The level a one-bit cell carries: `H` is 1 (R12). -/
theorem ofBool_getLsbD_zero (c : BitVec 1) : Level.ofBool (c.getLsbD 0) = if c = 1#1 then .H else .L := by
  revert c; decide

theorem selection_canStart_eq_true {sel : Selection} (hbegun : sel.begun = true) (hopen : sel.rxEn = true)
    (hidle : sel.busy = false) : sel.canStart = true := by
  simp [Selection.canStart, hbegun, hopen, hidle]

theorem selection_canStart_eq_false {sel : Selection} (h : sel.begun = false ∨ sel.rxEn = false ∨ sel.busy = true) :
    sel.canStart = false := by
  rcases h with h | h | h <;> simp [Selection.canStart, h]

/-- A rising edge is `RX_START` exactly when a word can start (R131, R139). -/
theorem decode_rise (sel : Selection) :
    decode sel (.lineEvent 0b01#2) = .ok (if sel.canStart then .rxStart else .edgeIgn .rise) := by
  cases h : sel.canStart <;> simp [decode, decodeEvent, h]

theorem decode_fall (sel : Selection) : decode sel (.lineEvent 0b10#2) = .ok (.edgeIgn .fall) := rfl

/-- A tick while busy at bit index 1..8 is a data sample (R132). -/
theorem decode_dataCell {sel : Selection} (c : BitVec 1) (hb : sel.busy = true) (h1 : 1 ≤ sel.bi.toNat)
    (h8 : sel.bi.toNat ≤ 8) : decode sel (.lineCell c) = .ok (.rxData (if c = 1#1 then .H else .L)) := by
  rw [← ofBool_getLsbD_zero]
  simp [decode, decodeCell, hb, h1, h8]

/-! ### The statements -/

/-- Settles O4: a word-ready state runs interrupt entry, and the decoder's guard is that same condition. -/
theorem risingEdgeStartsWord : Obligations.RisingEdgeStartsWord := by
  refine ⟨fun s hbegun hopen hidle => exec_rxStart_eq ⟨hbegun, hopen, hidle⟩, fun sel hbegun hopen hidle => ?_,
    fun sel h => ?_⟩
  · rw [decode_rise, selection_canStart_eq_true hbegun hopen hidle, if_pos rfl]
  · rw [decode_rise, selection_canStart_eq_false h, if_neg Bool.false_ne_true]

/-- Settles O5: the sample's step on `acc`, `par` and `bi`, written out by the level. -/
theorem dataSampleEffect : Obligations.DataSampleEffect := by
  refine ⟨fun lvl s hb h1 h8 => ?_, fun sel c => decode_dataCell c⟩
  rw [exec_rxData_eq lvl hb h1 h8, ← accAfter_eq, ← parityAfter_eq]
  rfl

/-- Settles O8: at word index 0 only the word index is written. -/
theorem sentinelWordEffect : Obligations.SentinelWordEffect :=
  fun d _ hwi => exec_wSentinel_eq d (congrArg BitVec.toNat hwi)

/-- Settles O9, from the law of a read after a write of the frame buffer. -/
theorem payloadWordEffect : Obligations.PayloadWordEffect := fun d s h1 h23 =>
  ⟨(s.putByte (s.wi.toNat - 1) d).setWi (s.wi + 1), exec_wStore_eq d h1 h23, rfl,
    fun a => s.putByte_byteAt (s.wi.toNat - 1) a d, rfl⟩

/-- Settles O10, by the operating mode: only in on-demand mode is the path closed. -/
theorem terminatorWordEffect : Obligations.TerminatorWordEffect := by
  intro d s hwi
  rw [exec_wTerm_eq d (congrArg BitVec.toNat hwi)]
  by_cases hm : s.mode = .onDemand
  · rw [if_pos hm, if_pos hm]; rfl
  · rw [if_neg hm, if_neg hm]; rfl

/-- Settles O11: in every state a falling edge is `EDGE_IGN`, which clears the edge latch. -/
theorem fallingEdgeIgnored : Obligations.FallingEdgeIgnored :=
  ⟨fun _ => rfl, decode_fall⟩

end Sys2Proof.Machine
end

section
/-! PROOFS. The extractor's reads (spec/41_channel_extractor.md): what each one answers in a command-ready state, and
the statements O15, O19 and O20, assembled from these. -/

namespace Sys2Proof.Machine

/-! ### What a read answers in a command-ready state -/

/-- `GETCHRAW` replies with the raw value of its read, in the state that read leaves (R161). -/
theorem exec_getchraw_eq {idx : Nat} {s t : State} {v : BitVec 16} (hs : s.CommandReady)
    (h : rawValue idx s = .ok (v, t)) : exec (.getchraw idx) s = .next (t.reply (.value v)) := by
  rw [exec, execGetchraw, ifCommandReady_of _ hs, h]

theorem exec_getchraw_binary {idx k : Nat} {s : State} (hs : s.CommandReady) (hc : channelOf idx = .binary k) :
    exec (.getchraw idx) s = .next (s.reply (.value (binaryRaw ((s.byteAt 22).getLsbD k)))) :=
  exec_getchraw_eq hs (rawValue_binary s hc)

theorem exec_sigloss_eq {s : State} (hs : s.CommandReady) :
    exec .sigloss s = .next (s.reply (.bit ((s.byteAt 22).getLsbD 2))) := by
  rw [exec, execSigloss, ifCommandReady_of _ hs, replyFlag_eq]

theorem exec_failsafe_eq {s : State} (hs : s.CommandReady) :
    exec .failsafe s = .next (s.reply (.bit ((s.byteAt 22).getLsbD 3))) := by
  rw [exec, execFailsafe, ifCommandReady_of _ hs, replyFlag_eq]

/-! ### The statements -/

/-- Settles O15: indices 17 and 18 name the binary channels of flag bits 0 and 1, whose raw values are the two limits. -/
theorem binaryChannelRead : Obligations.BinaryChannelRead := by
  intro s hs
  have h17 : channelOf 17 = .binary 0 := rfl
  have h18 : channelOf 18 = .binary 1 := rfl
  exact ⟨exec_getchraw_binary hs h17, exec_getchraw_binary hs h18⟩

/-- Settles O19: the reply is the only thing a flag read writes. -/
theorem signalLossRead : Obligations.SignalLossRead :=
  fun _ hs => exec_sigloss_eq hs

/-- Settles O20: the reply is the only thing a flag read writes. -/
theorem failsafeRead : Obligations.FailsafeRead :=
  fun _ hs => exec_failsafe_eq hs

end Sys2Proof.Machine
end

section
/-! PROOFS. The control operations (spec/42_control.md): what `WAITFRAME` answers in each mode, which command words are
legal, which commands are refused, and the statements O26, O27 and O30, assembled from these. -/

namespace Sys2Proof.Machine

/-! ### `WAITFRAME` in a command-ready state -/

theorem exec_waitframe_continuous {s : State} (timeout now : Ms) (hs : s.CommandReady) (hm : s.mode = .continuous) :
    exec (.waitframe timeout now) s = .next (s.reply (.bit true)) := by
  rw [exec, execWaitframe, ifCommandReady_of _ hs, hm]

theorem exec_waitframe_onDemand {s : State} (timeout now : Ms) (hs : s.CommandReady) (hm : s.mode = .onDemand) :
    exec (.waitframe timeout now) s = .next (s.armWait timeout now) := by
  rw [exec, execWaitframe, ifCommandReady_of _ hs, hm]

/-! ### Legal command words (R101) -/

/-- The word matches one of the six rows of R101. -/
abbrev MatchesCommandRow (cw : BitVec 16) : Prop :=
  cw &&& 0xFFFE#16 = 0x0000#16 ∨ cw = 0x1000#16 ∨ cw &&& 0xFF00#16 = 0x2000#16 ∨ cw &&& 0xFF00#16 = 0x3000#16 ∨
    cw = 0x4000#16 ∨ cw = 0x5000#16

/-- Keeping the bits from n on is rounding the number down to a multiple of 2 ^ n. -/
theorem and_highBits_toNat (cw : BitVec 16) (n : Nat) :
    (cw &&& BitVec.allOnes 16 <<< n).toNat = cw.toNat / 2 ^ n * 2 ^ n := by
  have hle : cw.toNat / 2 ^ n * 2 ^ n < 2 ^ 16 := (Nat.div_mul_le_self _ _).trans_lt cw.isLt
  rw [← BitVec.shiftLeft_ushiftRight, BitVec.toNat_shiftLeft, BitVec.toNat_ushiftRight, Nat.shiftRight_eq_div_pow,
    Nat.shiftLeft_eq, Nat.mod_eq_of_lt hle]

/-- The six rows in terms of the word's number. -/
theorem matchesCommandRow_iff_toNat (cw : BitVec 16) :
    MatchesCommandRow cw ↔
    (cw.toNat < 2 ∨ cw.toNat = 0x1000 ∨ cw.toNat / 256 = 0x20 ∨ cw.toNat / 256 = 0x30 ∨
      cw.toNat = 0x4000 ∨ cw.toNat = 0x5000) := by
  have hbegin : (cw &&& 0xFFFE#16).toNat = cw.toNat / 2 * 2 := and_highBits_toNat cw 1
  have hread : (cw &&& 0xFF00#16).toNat = cw.toNat / 256 * 256 := and_highBits_toNat cw 8
  simp only [MatchesCommandRow, ← BitVec.toNat_inj, hbegin, hread, BitVec.reduceToNat]
  omega

/-- The decoder accepts exactly the words of the table: each of its branches is a range of the word's number. -/
theorem decodeCommand_ok_iff (cw : BitVec 16) (pin : Nat) (timeout now : Ms) :
    (∃ i, decodeCommand cw pin timeout now = .ok i) ↔ MatchesCommandRow cw := by
  rw [matchesCommandRow_iff_toNat]
  simp only [decodeCommand]
  split_ifs <;> simp <;> omega

/-- The step that meets, at the head of its inputs, a command word matching no row refuses it (R188). -/
theorem step_illegalCommand {cw : BitVec 16} {pin : Nat} {timeout now : Ms} {rest : List Packet} {s : State}
    (hidle : s.busy = false) (hin : s.inputs = .command cw pin timeout now :: rest)
    (hcw : ¬ ∃ i, decodeCommand cw pin timeout now = .ok i) : ∃ r, step s = .refused (.illegalInput r) := by
  have hfree : held s.busy s.guard (.command cw pin timeout now) = false := by simp [held, isMainPacket, hidle]
  cases hd : decodeCommand cw pin timeout now with
  | ok i => exact absurd ⟨i, hd⟩ hcw
  | error r => exact ⟨r, by simp [step, hin, takeInput_head hfree, serve, perform, decode, hd]⟩

/-! ### Commands out of sequence (R188) -/

theorem ifCommandReady_notBegun {s : State} (k : Result) (h : s.begun = false) :
    ifCommandReady s k = .refused .notBegun := by
  simp [ifCommandReady, h]

theorem ifCommandReady_inWait {s : State} (k : Result) (hb : s.begun = true) (hidle : s.busy = false)
    (hw : s.wf.isSome = true) : ifCommandReady s k = .refused .waitInProgress := by
  simp [ifCommandReady, hb, hidle, hw]

/-- Every command but `BEGIN` runs behind the one check of R160 and R186. -/
theorem exec_command_eq_ifCommandReady {i : Instr} (s : State) (hi : isCommand i = true)
    (hne : ∀ pin m, i ≠ .begin pin m) : ∃ k, exec i s = ifCommandReady s k := by
  cases i with
  | begin pin m => exact absurd rfl (hne pin m)
  | waitframe timeout now => exact ⟨_, rfl⟩
  | getchraw idx => exact ⟨_, rfl⟩
  | getch idx => exact ⟨_, rfl⟩
  | sigloss => exact ⟨_, rfl⟩
  | failsafe => exact ⟨_, rfl⟩
  | _ => cases hi

theorem exec_command_notBegun {i : Instr} {s : State} (hi : isCommand i = true) (hne : ∀ pin m, i ≠ .begin pin m)
    (h : s.begun = false) : exec i s = .refused .notBegun := by
  obtain ⟨k, hk⟩ := exec_command_eq_ifCommandReady s hi hne
  rw [hk, ifCommandReady_notBegun k h]

theorem exec_command_inWait {i : Instr} {s : State} (hi : isCommand i = true) (hne : ∀ pin m, i ≠ .begin pin m)
    (hb : s.begun = true) (hidle : s.busy = false) (hw : s.wf.isSome = true) :
    exec i s = .refused .waitInProgress := by
  obtain ⟨k, hk⟩ := exec_command_eq_ifCommandReady s hi hne
  rw [hk, ifCommandReady_inWait k hb hidle hw]

theorem exec_begin_again {s : State} (pin : Nat) (m : Mode) (h : s.begun = true) :
    exec (.begin pin m) s = .refused .alreadyBegun :=
  if_pos h

/-! ### The statements -/

/-- Settles O26: the reply is the only thing `WAITFRAME` writes in continuous mode. -/
theorem continuousWaitReturnsAtOnce : Obligations.ContinuousWaitReturnsAtOnce :=
  fun timeout now _ hs hm => exec_waitframe_continuous timeout now hs hm

/-- Settles O27: in on-demand mode `WAITFRAME` is `WF_ARM`, which gives no reply. -/
theorem onDemandWaitArms : Obligations.OnDemandWaitArms :=
  fun timeout now _ hs hm => exec_waitframe_onDemand timeout now hs hm

/-- Settles O30: a word of no row does not decode, and a command out of sequence fails the check it runs behind. -/
theorem outOfSequenceCommandsRefused : Obligations.OutOfSequenceCommandsRefused := by
  refine ⟨fun cw pin timeout now rest s hidle hin hcw => ?_, fun i s hi hne h => exec_command_notBegun hi hne h,
    fun pin m s h => exec_begin_again pin m h, fun i s hi hb hidle hw => ?_⟩
  · exact step_illegalCommand hidle hin fun hok => hcw ((decodeCommand_ok_iff cw pin timeout now).mp hok)
  · cases i with
    | begin pin m => exact exec_begin_again pin m hb
    | _ => exact exec_command_inWait hi nofun hb hidle hw

end Sys2Proof.Machine
end

section
/-! PROOFS. The encodings (spec/30_encoding.md): the cells of a word on the wire, the command words, and the statements
O31 to O35, assembled from these. -/

namespace Sys2Proof.Machine

/-! ### Levels and cells -/

@[simp] theorem Level.toBool_ofBool (b : Bool) : (Level.ofBool b).toBool = b := by
  cases b <;> rfl

/-- The cell made from a cell's level is that cell. -/
theorem ofBool_toBool_cell (c : BitVec 1) : BitVec.ofBool (Level.ofBool (c.getLsbD 0)).toBool = c := by
  revert c; decide

@[simp] theorem Mode.toBool_ofBool (b : Bool) : (Mode.ofBool b).toBool = b := by
  cases b <;> rfl

@[simp] theorem cellLevel_toBool (cells : BitVec 12) (k : Nat) : (cellLevel cells k).toBool = cells.getLsbD (11 - k) :=
  Level.toBool_ofBool _

/-! ### A word on the wire -/

/-- The parity of a word's nine samples, bit by bit. -/
theorem oddHigh_samples (cells : BitVec 12) :
    oddHigh (samples cells) =
      (cells.getLsbD 10 ^^ (cells.getLsbD 9 ^^ (cells.getLsbD 8 ^^ (cells.getLsbD 7 ^^ (cells.getLsbD 6 ^^
        (cells.getLsbD 5 ^^ (cells.getLsbD 4 ^^ (cells.getLsbD 3 ^^ cells.getLsbD 2)))))))) := by
  simp [samples, oddHigh]

/-- Bit k of the decoded byte is the inverse of sample k + 1 (R92). -/
theorem wordByte_getLsbD (cells : BitVec 12) {k : Nat} (hk : k < 8) :
    (wordByte cells).getLsbD k = !cells.getLsbD (10 - k) := by
  interval_cases k <;> simp [wordByte, BitVec.getLsbD_ofBoolListLE, -BitVec.getLsbD_eq_getElem]

theorem wordCells_start (d : Byte) : (wordCells d).getLsbD 11 = true := by
  simp [wordCells, BitVec.getLsbD_ofBoolListBE, -BitVec.getLsbD_eq_getElem]

/-- Data cell k + 1 of a built word is bit k of its byte, inverted (R93). -/
theorem wordCells_data (d : Byte) {k : Nat} (hk : k < 8) : (wordCells d).getLsbD (10 - k) = !d.getLsbD k := by
  interval_cases k <;> simp [wordCells, BitVec.getLsbD_ofBoolListBE, -BitVec.getLsbD_eq_getElem]

theorem wordCells_parity (d : Byte) : (wordCells d).getLsbD 2 = !parityBit d := by
  simp [wordCells, BitVec.getLsbD_ofBoolListBE, -BitVec.getLsbD_eq_getElem]

theorem wordCells_stop (d : Byte) {k : Nat} (hk : k < 2) : (wordCells d).getLsbD k = false := by
  interval_cases k <;> simp [wordCells, BitVec.getLsbD_ofBoolListBE, -BitVec.getLsbD_eq_getElem]

theorem cellLevel_zero_wordCells (d : Byte) : cellLevel (wordCells d) 0 = .H :=
  congrArg Level.ofBool (wordCells_start d)

/-- A built word is read back as its byte (R92, R93). -/
theorem wordByte_wordCells (d : Byte) : wordByte (wordCells d) = d := by
  refine BitVec.eq_of_getLsbD_eq fun k hk => ?_
  rw [wordByte_getLsbD _ hk, wordCells_data d hk, Bool.not_not]

/-- The nine samples of a word, in terms of the byte it decodes to and its parity cell. -/
theorem oddHigh_samples_eq (cells : BitVec 12) :
    oddHigh (samples cells) = (parityBit (wordByte cells) ^^ cells.getLsbD 2) := by
  simp [oddHigh_samples, parityBit, wordByte_getLsbD, -BitVec.getLsbD_eq_getElem]

/-- A built word has good parity: its parity cell makes the number of `H` samples odd (R93, R133). -/
theorem oddHigh_samples_wordCells (d : Byte) : oddHigh (samples (wordCells d)) = true := by
  rw [oddHigh_samples_eq, wordByte_wordCells, wordCells_parity, Bool.xor_not_self]

/-- A word with a start cell and good parity is the built word of its byte, but for its stop cells (R94). -/
theorem wordCells_wordByte {cells : BitVec 12} (hstart : cells.getLsbD 11 = true)
    (hodd : oddHigh (samples cells) = true) : wordCells (wordByte cells) = cells &&& 0xFFC#12 := by
  have hpar : cells.getLsbD 2 = !parityBit (wordByte cells) := by
    rw [oddHigh_samples_eq] at hodd
    revert hodd
    cases parityBit (wordByte cells) <;> cases cells.getLsbD 2 <;> simp
  have hmask : ∀ k, k < 12 → (0xFFC#12).getLsbD k = decide (2 ≤ k) := by decide
  refine BitVec.eq_of_getLsbD_eq fun k hk => ?_
  rw [BitVec.getLsbD_and, hmask k hk]
  rcases Nat.lt_or_ge k 2 with hlo | hlo
  · simp [wordCells_stop _ hlo, Nat.not_le.mpr hlo]
  rcases (by omega : k = 2 ∨ k = 11 ∨ 3 ≤ k ∧ k ≤ 10) with rfl | rfl | ⟨h3, h10⟩
  · rw [wordCells_parity, hpar, decide_eq_true hlo, Bool.and_true]
  · rw [wordCells_start, hstart, decide_eq_true hlo, Bool.and_true]
  · have hk' : 10 - (10 - k) = k := by omega
    have hdata := wordCells_data (wordByte cells) (k := 10 - k) (by omega)
    rw [wordByte_getLsbD cells (by omega), hk', Bool.not_not] at hdata
    simp [hdata, hlo]

/-! ### Inverted cells (R143) -/

/-- Inverting cell b flips its bit and no other. -/
theorem invertCell_getLsbD (cells : BitVec 12) {b k : Nat} (hb : b ≤ 11) :
    (invertCell cells b).getLsbD k = (cells.getLsbD k ^^ decide (k = 11 - b)) := by
  have hone : (1#12 <<< (11 - b)).getLsbD k = decide (k = 11 - b) := by
    rw [← BitVec.twoPow_eq, BitVec.getLsbD_twoPow]
    simp only [eq_comm (a := 11 - b), show 11 - b < 12 by omega, decide_true, Bool.true_and]
  rw [invertCell, BitVec.getLsbD_xor, hone]

/-- One inverted sample changes the parity. -/
theorem oddHigh_samples_invertCell (cells : BitVec 12) {b : Nat} (h1 : 1 ≤ b) (h9 : b ≤ 9) :
    oddHigh (samples (invertCell cells b)) = !oddHigh (samples cells) := by
  simp only [oddHigh_samples, invertCell_getLsbD cells (show b ≤ 11 by omega)]
  interval_cases b <;> simp

/-- One inverted data sample changes the bit of the byte it carries, and no later inversion of another cell restores it. -/
theorem wordByte_invertCell_ne (cells : BitVec 12) {a b : Nat} (ha : 1 ≤ a) (hab : a < b) (hb : b ≤ 9) :
    wordByte (invertCell (invertCell cells a) b) ≠ wordByte cells := by
  intro heq
  have hbit := congrArg (BitVec.getLsbD · (a - 1)) heq
  simp only [wordByte_getLsbD _ (show a - 1 < 8 by omega)] at hbit
  rw [invertCell_getLsbD _ (by omega), invertCell_getLsbD _ (by omega),
    decide_eq_true (by omega), decide_eq_false (by omega)] at hbit
  simp at hbit

/-! ### Decoding a packet of the line -/

/-- A tick while idle is ignored (R140). -/
theorem decode_idleCell {sel : Selection} (c : BitVec 1) (hb : sel.busy = false) :
    decode sel (.lineCell c) = .ok (.tickIgn (if c = 1#1 then .H else .L)) := by
  rw [← ofBool_getLsbD_zero]
  simp [decode, decodeCell, hb]

/-- A tick while busy at bit index 9 is the parity sample (R133). -/
theorem decode_parityCell {sel : Selection} (c : BitVec 1) (hb : sel.busy = true) (h9 : sel.bi.toNat = 9) :
    decode sel (.lineCell c) = .ok (.rxParity (if c = 1#1 then .H else .L)) := by
  rw [← ofBool_getLsbD_zero]
  simp [decode, decodeCell, hb, h9]

/-- The level of a cell made from a level. -/
@[simp] theorem level_of_cell (l : Level) : (if BitVec.ofBool l.toBool = 1#1 then Level.H else .L) = l := by
  cases l <;> rfl

/-- The word operation a word index selects, with the byte of the word (R134 to R136). -/
def wordOperation (wi : BitVec 5) (d : Byte) : Instr :=
  if wi.toNat = 0 then .wSentinel d else if wi.toNat < 24 then .wStore d else .wTerm d

/-- A whole word decodes exactly where it can start, with a start cell and good parity, to its index's operation. -/
theorem decode_word_ok_iff (sel : Selection) (cells : BitVec 12) (i : Instr) :
    decode sel (.lineWord cells) = .ok i ↔
      cells.getLsbD 11 = true ∧ sel.canStart = true ∧ oddHigh (samples cells) = true ∧ sel.wi.toNat ≤ 24 ∧
        i = wordOperation sel.wi (wordByte cells) := by
  have hstart : cellLevel cells 0 = .L ↔ cells.getLsbD 11 = false := by
    rw [cellLevel]
    cases cells.getLsbD 11 <;> simp [Level.ofBool]
  simp only [decode, decodeWord, hstart, wordOperation, Config.lastWord]
  cases cells.getLsbD 11 <;> cases sel.canStart <;> cases oddHigh (samples cells) <;> simp
  split_ifs <;> simp [eq_comm] <;> omega

theorem decode_goodWord {sel : Selection} (d : Byte) (hs : sel.canStart = true) (hwi : sel.wi.toNat ≤ 24) :
    decode sel (.lineWord (wordCells d)) = .ok (wordOperation sel.wi d) :=
  (decode_word_ok_iff _ _ _).mpr
    ⟨wordCells_start d, hs, oddHigh_samples_wordCells d, hwi, by rw [wordByte_wordCells]⟩

/-- The word operation of an index 0..24 is well-formed, selected where a word can start, and encoded as its byte's word. -/
theorem wordOperation_selected {sel : Selection} (d : Byte) (hs : sel.canStart = true) (hwi : sel.wi.toNat ≤ 24) :
    (wordOperation sel.wi d).wellFormed = true ∧ sel.selects (wordOperation sel.wi d) = true ∧
      encode (wordOperation sel.wi d) = .lineWord (wordCells d) := by
  unfold wordOperation
  split_ifs with h0 h24
  · exact ⟨rfl, by simp [Selection.selects, hs, h0], rfl⟩
  · exact ⟨rfl, by simp [Selection.selects, hs]; omega, rfl⟩
  · exact ⟨rfl, by simp [Selection.selects, hs]; omega, rfl⟩

/-! ### Decoding a command word -/

/-- The word of `GETCHRAW` or `GETCH` carries its index in the low byte (R101, R102). -/
theorem decodeCommand_read {base idx : Nat} {timeout now : Ms} (hbase : base = 0x2000 ∨ base = 0x3000)
    (hidx : idx < 256) :
    decodeCommand (BitVec.ofNat 16 (base + idx)) 0 timeout now =
      .ok (if base = 0x2000 then .getchraw idx else .getch idx) := by
  have hn : (BitVec.ofNat 16 (base + idx)).toNat = base + idx := by
    rw [BitVec.toNat_ofNat, Nat.mod_eq_of_lt (by omega)]
  have hop : (base + idx) / 4096 = base / 4096 := by omega
  have hres : (base + idx) / 256 % 16 = 0 := by omega
  have harg : (base + idx) % 256 = idx := by omega
  rcases hbase with rfl | rfl <;> simp [decodeCommand, hn, hop, hres, harg]

/-- The six rows of R101: everything a command word can decode to, with its number. -/
theorem decodeCommand_ok_cases {cw : BitVec 16} {pin : Nat} {timeout now : Ms} {i : Instr}
    (h : decodeCommand cw pin timeout now = .ok i) :
    (cw.toNat < 2 ∧ i = .begin pin (Mode.ofBool (cw.getLsbD 0))) ∨
    (cw.toNat = 0x1000 ∧ i = .waitframe timeout now) ∨
    (cw.toNat / 256 = 0x20 ∧ i = .getchraw (cw.toNat % 256)) ∨
    (cw.toNat / 256 = 0x30 ∧ i = .getch (cw.toNat % 256)) ∨
    (cw.toNat = 0x4000 ∧ i = .sigloss) ∨ (cw.toNat = 0x5000 ∧ i = .failsafe) := by
  simp only [decodeCommand] at h
  split_ifs at h with hop hres h0 harg h2 h3 hz h1 h4 <;> cases h
  · exact .inl ⟨by omega, rfl⟩
  · exact .inr (.inr (.inl ⟨by omega, rfl⟩))
  · exact .inr (.inr (.inr (.inl ⟨by omega, rfl⟩)))
  · exact .inr (.inl ⟨by omega, rfl⟩)
  · exact .inr (.inr (.inr (.inr (.inl ⟨by omega, rfl⟩))))
  · exact .inr (.inr (.inr (.inr (.inr ⟨by omega, rfl⟩))))

/-- `BEGIN`'s word is its mode bit (R101). -/
theorem begin_word_eq {cw : BitVec 16} (h : cw.toNat < 2) : BitVec.ofNat 16 (cw.getLsbD 0).toNat = cw := by
  have hcw : cw = 0#16 ∨ cw = 1#16 := by
    simp only [← BitVec.toNat_inj, BitVec.toNat_ofNat]
    omega
  rcases hcw with rfl | rfl <;> rfl

theorem decodeCommand_selected {sel : Selection} {cw : BitVec 16} {pin : Nat} {timeout now : Ms} {i : Instr}
    (h : decodeCommand cw pin timeout now = .ok i) :
    i.wellFormed = true ∧ sel.selects i = true ∧ encode i = (Packet.command cw pin timeout now).canonical := by
  have hword : ∀ n, cw.toNat = n → cw = BitVec.ofNat 16 n := fun n hn => by rw [← hn, BitVec.ofNat_toNat, BitVec.setWidth_eq]
  rcases decodeCommand_ok_cases h with ⟨hcw, rfl⟩ | ⟨hcw, rfl⟩ | ⟨hcw, rfl⟩ | ⟨hcw, rfl⟩ | ⟨hcw, rfl⟩ | ⟨hcw, rfl⟩
  · have hop : cw.toNat / 4096 = 0 := by omega
    exact ⟨rfl, rfl, by simp [encode, Packet.canonical, hop, begin_word_eq hcw, -BitVec.getLsbD_eq_getElem]⟩
  · exact ⟨rfl, rfl, by simp [encode, Packet.canonical, hword _ hcw]⟩
  · have hop : cw.toNat / 4096 = 2 := by omega
    have hnum : 0x2000 + cw.toNat % 256 = cw.toNat := by omega
    exact ⟨decide_eq_true (Nat.mod_lt _ (by decide)), rfl, by simp [encode, Packet.canonical, hop, hnum]⟩
  · have hop : cw.toNat / 4096 = 3 := by omega
    have hnum : 0x3000 + cw.toNat % 256 = cw.toNat := by omega
    exact ⟨decide_eq_true (Nat.mod_lt _ (by decide)), rfl, by simp [encode, Packet.canonical, hop, hnum]⟩
  · exact ⟨rfl, rfl, by simp [encode, Packet.canonical, hword _ hcw]⟩
  · exact ⟨rfl, rfl, by simp [encode, Packet.canonical, hword _ hcw]⟩

/-! ### The statements -/

/-- Settles O31, operation by operation: each packet meets the guard that its row's selecting state opens. -/
theorem decodeInvertsEncode : Obligations.DecodeInvertsEncode := by
  intro sel i hwf hsel
  cases i with
  | rxStart =>
    rw [encode, decode_rise, if_pos (show sel.canStart = true from hsel)]
  | rxData lvl =>
    simp only [Selection.selects, Bool.and_eq_true, decide_eq_true_eq] at hsel
    obtain ⟨⟨hbusy, h1⟩, h8⟩ := hsel
    rw [encode, decode_dataCell _ hbusy h1 h8, level_of_cell]
  | rxParity lvl =>
    simp only [Selection.selects, Bool.and_eq_true, beq_iff_eq] at hsel
    rw [encode, decode_parityCell _ hsel.1 hsel.2, level_of_cell]
  | wSentinel d =>
    simp only [Selection.selects, Bool.and_eq_true, beq_iff_eq] at hsel
    obtain ⟨hstart, hwi⟩ := hsel
    rw [encode, decode_goodWord d hstart (by omega), wordOperation, if_pos hwi]
  | wStore d =>
    simp only [Selection.selects, Bool.and_eq_true, decide_eq_true_eq] at hsel
    obtain ⟨⟨hstart, h1⟩, h23⟩ := hsel
    rw [encode, decode_goodWord d hstart (by omega), wordOperation, if_neg (by omega), if_pos (by omega)]
  | wTerm d =>
    simp only [Selection.selects, Bool.and_eq_true, beq_iff_eq] at hsel
    obtain ⟨hstart, hwi⟩ := hsel
    rw [encode, decode_goodWord d hstart (by omega), wordOperation, if_neg (by omega), if_neg (by omega)]
  | edgeIgn e =>
    cases e with
    | rise =>
      have hstart : sel.canStart = false := by simpa [Selection.selects] using hsel
      rw [encode, decode_rise, hstart, if_neg Bool.false_ne_true]
    | fall => rfl
  | tickIgn lvl =>
    have hidle : sel.busy = false := by simpa [Selection.selects] using hsel
    rw [encode, decode_idleCell _ hidle, level_of_cell]
  | begin pin m => cases m <;> rfl
  | waitframe timeout now => rfl
  | wfPoll now => rfl
  | getchraw idx => exact decodeCommand_read (.inl rfl) (by simpa [Instr.wellFormed] using hwf)
  | getch idx => exact decodeCommand_read (.inr rfl) (by simpa [Instr.wellFormed] using hwf)
  | sigloss => rfl
  | failsafe => rfl

/-- Settles O32, packet by packet: each answer of the decoder stands behind the guard that selects it. -/
theorem decodeGivesSelectedOperation : Obligations.DecodeGivesSelectedOperation := by
  intro sel p i h
  cases p with
  | lineEvent levels =>
    simp only [decode, decodeEvent] at h
    split_ifs at h with hrise hstart hfall <;> cases h <;> subst levels
    · exact ⟨rfl, hstart, rfl⟩
    · exact ⟨rfl, by simpa [Selection.selects] using hstart, rfl⟩
    · exact ⟨rfl, rfl, rfl⟩
  | lineCell c =>
    simp only [decode, decodeCell] at h
    split_ifs at h with hbusy hdata hpar <;> cases h
    · exact ⟨rfl, hbusy, congrArg Packet.lineCell (ofBool_toBool_cell c)⟩
    · exact ⟨rfl, by simpa [Selection.selects, hdata] using hbusy, congrArg Packet.lineCell (ofBool_toBool_cell c)⟩
    · exact ⟨rfl, by simpa [Selection.selects, hpar] using hbusy, congrArg Packet.lineCell (ofBool_toBool_cell c)⟩
  | lineWord cells =>
    obtain ⟨hstart, hs, hodd, hwi, rfl⟩ := (decode_word_ok_iff _ _ _).mp h
    obtain ⟨hwf, hsel, henc⟩ := wordOperation_selected (wordByte cells) hs hwi
    exact ⟨hwf, hsel, by rw [henc, wordCells_wordByte hstart hodd]; rfl⟩
  | command cw pin timeout now => exact decodeCommand_selected h
  | poll now => cases h; exact ⟨rfl, rfl, rfl⟩

/-- Settles O33: masking with all ones is the word itself, and the rest is the decoder's table. -/
theorem legalCommandWordsAreTheTable : Obligations.LegalCommandWordsAreTheTable := by
  intro cw pin timeout now
  have hmask : cw &&& 0xFFFF#16 = cw := BitVec.and_allOnes
  rw [hmask]
  exact decodeCommand_ok_iff cw pin timeout now

/-- Settles O34: seven fixed words, evaluated. -/
theorem sampleWordsDecode : Obligations.SampleWordsDecode :=
  ⟨rfl, rfl, rfl, rfl, rfl, rfl, rfl⟩

/-- Settles O35: an inversion flips the parity of the samples, and the earlier of two cells is a data cell. -/
theorem parityDetectsSingleCellErrors : Obligations.ParityDetectsSingleCellErrors := by
  intro v
  refine ⟨oddHigh_samples_wordCells v, wordByte_wordCells v, fun b h1 h9 => ?_, fun a b ha hab hb => ⟨?_, ?_⟩⟩
  · rw [oddHigh_samples_invertCell _ h1 h9, oddHigh_samples_wordCells, Bool.not_true]
  · rw [oddHigh_samples_invertCell _ (by omega) hb, oddHigh_samples_invertCell _ ha (by omega),
      oddHigh_samples_wordCells, Bool.not_not]
  · have hne := wordByte_invertCell_ne (wordCells v) ha hab hb
    rwa [wordByte_wordCells] at hne

end Sys2Proof.Machine
end

section
/-! PROOFS. The ninth sample and the ignored events (spec/40_receiver.md R133, R139, R140): what `RX_PARITY` answers, and
the statements O6, O7, O12 and O13, assembled from these. -/

namespace Sys2Proof.Machine

/-- The parity check, as R133 writes it. -/
theorem parityOk_iff {par : BitVec 8} {lvl : Level} : parityOk par lvl = true ↔ (par ≠ 0x00#8 ↔ lvl = .H) := by
  have hlow : (Level.L == Level.H) = false := rfl
  cases lvl <;> simp [parityOk, hlow]

/-- The dispatch of `RX_PARITY` executes the word operation that its index selects (R133). -/
theorem dispatchWord_eq_exec (d : Byte) (s : State) :
    dispatchWord d s = exec (if s.wi = 0 then .wSentinel d else if s.wi = 24 then .wTerm d else .wStore d) s := by
  have h0 : s.wi.toNat = 0 ↔ s.wi = 0 := BitVec.toNat_inj (y := 0#5)
  have h24 : s.wi.toNat = 24 ↔ s.wi = 24 := BitVec.toNat_inj (y := 24#5)
  simp only [dispatchWord, h0, h24]
  split_ifs <;> rfl

theorem exec_rxParity_bad {s : State} {lvl : Level} (hb : s.busy = true) (h9 : s.bi.toNat = 9)
    (hp : parityOk s.par lvl = false) : exec (.rxParity lvl) s = .next s.clearTick.raiseReceiveError.leaveWord := by
  simp [exec, execRxParity, hb, h9, hp]

theorem exec_rxParity_good {s : State} {lvl : Level} (hb : s.busy = true) (h9 : s.bi.toNat = 9)
    (hp : parityOk s.par lvl = true) :
    exec (.rxParity lvl) s = (dispatchWord (~~~s.acc) s.clearTick).andThen fun t => .next t.leaveWord := by
  simp [exec, execRxParity, hb, h9, hp]

/-! ### The statements -/

/-- Settles O6: the two branches of the check, and the dispatch as an operation of its own. -/
theorem parityCheckAndDispatch : Obligations.ParityCheckAndDispatch := by
  refine ⟨fun lvl s hb h9 => ⟨fun hbad => ?_, fun hgood => ?_⟩, fun sel c => decode_parityCell c⟩
  · have hp : parityOk s.par lvl = false := Bool.eq_false_iff.mpr fun h => hbad (parityOk_iff.mp h)
    exact exec_rxParity_bad hb h9 hp
  · rw [exec_rxParity_good hb h9 (parityOk_iff.mpr hgood), dispatchWord_eq_exec]
    rfl

/-- Settles O7: each of the three ranges of the word index selects a word operation that answers a next state. -/
theorem goodParityCompletes : Obligations.GoodParityCompletes := by
  intro lvl s hb h9 hgood
  rw [exec_rxParity_good hb h9 (parityOk_iff.mpr hgood)]
  refine ⟨fun h0 => ?_, fun h1 h23 => ?_, fun h24 => ?_⟩
  · rw [dispatchWord_eq_exec, if_pos (show s.clearTick.wi = 0 from h0),
      exec_wSentinel_eq _ (show s.clearTick.wi.toNat = 0 from congrArg BitVec.toNat h0)]
    rfl
  · have hne0 : s.clearTick.wi ≠ 0 := fun h => by rw [State.clearTick_wi] at h; simp [h] at h1
    have hne24 : s.clearTick.wi ≠ 24 := fun h => by rw [State.clearTick_wi] at h; simp [h] at h23
    rw [dispatchWord_eq_exec, if_neg hne0, if_neg hne24, exec_wStore_eq (s := s.clearTick) _ h1 h23]
    rfl
  · have hne0 : s.clearTick.wi ≠ 0 := fun h => by rw [State.clearTick_wi, h24] at h; cases h
    rw [dispatchWord_eq_exec, if_neg hne0, if_pos (show s.clearTick.wi = 24 from h24),
      terminatorWordEffect _ s.clearTick h24]
    rfl

/-- Settles O12: the three conditions are those that keep a word from starting. -/
theorem unusableRisingEdgeIgnored : Obligations.UnusableRisingEdgeIgnored := by
  intro s h
  have hstart : s.selection.canStart = false := selection_canStart_eq_false h
  simp [exec, execEdgeIgn, hstart]

/-- Settles O13: a tick that meets an idle receiver is `TICK_IGN`, which writes nothing. -/
theorem idleTickIgnored : Obligations.IdleTickIgnored := by
  refine ⟨fun lvl s hidle => ?_, fun sel c => decode_idleCell c⟩
  simp [exec, execTickIgn, hidle]

end Sys2Proof.Machine
end

section
/-! PROOFS. The layout table and the reads of the buffer (spec/41_channel_extractor.md): the value of each read as a
function of the 23 bytes, the bits it takes from them, the scale, and the statements O14, O16, O17, O18 and O21 to O25,
assembled from these. -/

namespace Sys2Proof.Machine

/-! ### The value of a read, as a function of the bytes -/

/-- The raw value of a channel index over the bytes of a buffer (R161 to R164). -/
def rawOf (idx : Nat) (byte : Nat → Byte) : BitVec 16 :=
  match channelOf idx with
  | .prop e => combine e (byte e.off) (byte (e.off + 1)) (byte (e.off + 2))
  | .binary k => binaryRaw ((byte 22).getLsbD k)
  | .invalid => 0#16

theorem rawOf_prop {idx : Nat} {e : LayoutEntry} (byte : Nat → Byte) (hc : channelOf idx = .prop e) :
    rawOf idx byte = combine e (byte e.off) (byte (e.off + 1)) (byte (e.off + 2)) := by
  rw [rawOf, hc]

theorem rawOf_binary {idx k : Nat} (byte : Nat → Byte) (hc : channelOf idx = .binary k) :
    rawOf idx byte = binaryRaw ((byte 22).getLsbD k) := by
  rw [rawOf, hc]

theorem rawOf_invalid {idx : Nat} (byte : Nat → Byte) (hc : channelOf idx = .invalid) : rawOf idx byte = 0#16 := by
  rw [rawOf, hc]

/-- Lowering a guard that is down changes nothing. -/
theorem State.setGuard_eq_self {s : State} (hg : s.guard = false) : s.setGuard false = s := by
  rw [← hg]
  rfl

/-- With the guard down, `GETCHRAW`'s read answers the raw value of the bytes and leaves the state as it was. -/
theorem rawValue_eq_rawOf (idx : Nat) {s : State} (hg : s.guard = false) : rawValue idx s = .ok (rawOf idx s.byteAt, s) := by
  rcases channelOf_cases idx with ⟨_, _, e, he, hc⟩ | ⟨_, hc⟩ | ⟨_, hc⟩ | ⟨_, hc⟩
  · rw [rawValue_prop s he hc, rawOf_prop _ hc, State.setGuard_eq_self hg]
  · rw [rawValue_binary s hc, rawOf_binary _ hc]
  · rw [rawValue_binary s hc, rawOf_binary _ hc]
  · rw [rawValue_invalid s hc, rawOf_invalid _ hc]

/-- The result of each of the four reads over the bytes of a buffer (R161, R166 to R168). -/
def readReply (byte : Nat → Byte) : Instr → Reply
  | .getchraw idx => .value (rawOf idx byte)
  | .getch idx => .value (rescale (rawOf idx byte))
  | .sigloss => .bit ((byte 22).getLsbD 2)
  | _ => .bit ((byte 22).getLsbD 3)

/-- `GETCH` replies with the rescaled raw value of its read, in the state that read leaves (R166). -/
theorem exec_getch_eq {idx : Nat} {s t : State} {v : BitVec 16} (hs : s.CommandReady)
    (h : rawValue idx s = .ok (v, t)) : exec (.getch idx) s = .next (t.reply (.value (rescale v))) := by
  rw [exec, execGetch, ifCommandReady_of _ hs, h]

/-- Every read of a command-ready state with the guard down completes, and its reply is all it writes (R170). -/
theorem exec_read_eq {i : Instr} {s : State} (hi : isRead i = true) (hg : s.guard = false) (hs : s.CommandReady) :
    exec i s = .next (s.reply (readReply s.byteAt i)) := by
  cases i with
  | getchraw idx => exact exec_getchraw_eq hs (rawValue_eq_rawOf idx hg)
  | getch idx => exact exec_getch_eq hs (rawValue_eq_rawOf idx hg)
  | sigloss => exact exec_sigloss_eq hs
  | failsafe => exact exec_failsafe_eq hs
  | _ => cases hi

/-! ### Which bits of the bytes a read takes -/

/-- Offset 22, the flags byte, is never the first or second byte of an entry, nor a third byte that is used (R104). -/
theorem layout_flags_unread {c : Nat} {e : LayoutEntry} (h : layoutTable[c]? = some e) :
    e.off + 1 < 22 ∧ (e.s3.isSome = true → e.off + 2 < 22) := by
  have all : ∀ x ∈ layoutTable, x.off + 1 < 22 ∧ (x.s3.isSome = true → x.off + 2 < 22) := by decide
  exact all e (List.mem_of_getElem? h)

/-- The third byte counts only where the entry has a third shift (R105). -/
theorem combine_third_unused {e : LayoutEntry} (he : e.s3 = none) (b1 b2 b3 b3' : Byte) :
    combine e b1 b2 b3 = combine e b1 b2 b3' := by
  simp [combine, he]

/-- A raw value depends on the bytes below the flags byte and on the flags byte's bits 0 and 1 alone. -/
theorem rawOf_congr (idx : Nat) {f g : Nat → Byte} (hlow : ∀ k, k < 22 → f k = g k)
    (hflag : ∀ k, k < 4 → (f 22).getLsbD k = (g 22).getLsbD k) : rawOf idx f = rawOf idx g := by
  rcases channelOf_cases idx with ⟨_, _, e, he, hc⟩ | ⟨_, hc⟩ | ⟨_, hc⟩ | ⟨_, hc⟩
  · obtain ⟨h2, h3⟩ := layout_flags_unread he
    rw [rawOf_prop _ hc, rawOf_prop _ hc, hlow e.off (by omega), hlow (e.off + 1) h2]
    cases hs : e.s3 with
    | none => exact combine_third_unused hs _ _ _ _
    | some n => rw [hlow (e.off + 2) (h3 (by rw [hs]; rfl))]
  · rw [rawOf_binary _ hc, rawOf_binary _ hc, hflag 0 (by decide)]
  · rw [rawOf_binary _ hc, rawOf_binary _ hc, hflag 1 (by decide)]
  · rw [rawOf_invalid _ hc, rawOf_invalid _ hc]

/-- A read's result depends on the bytes below the flags byte and on the flags byte's low four bits alone (R31, R170). -/
theorem readReply_congr (i : Instr) {f g : Nat → Byte} (hlow : ∀ k, k < 22 → f k = g k)
    (hflag : ∀ k, k < 4 → (f 22).getLsbD k = (g 22).getLsbD k) : readReply f i = readReply g i := by
  cases i <;> simp only [readReply, rawOf_congr _ hlow hflag, hflag 2 (by decide), hflag 3 (by decide)]

/-! ### The range of a raw value, and the scale (R103, R166) -/

/-- The mask of R162 as a remainder. -/
theorem combine_eq (e : LayoutEntry) (b1 b2 b3 : Byte) :
    combine e b1 b2 b3 = BitVec.ofNat 16
      ((b1.toNat >>> e.s1 ||| b2.toNat <<< e.s2 ||| (match e.s3 with | none => 0 | some n => b3.toNat <<< n)) % 2048) :=
  congrArg (BitVec.ofNat 16) (Nat.and_two_pow_sub_one_eq_mod _ 11)

theorem combine_toNat (e : LayoutEntry) (b1 b2 b3 : Byte) :
    (combine e b1 b2 b3).toNat =
      (b1.toNat >>> e.s1 ||| b2.toNat <<< e.s2 ||| (match e.s3 with | none => 0 | some n => b3.toNat <<< n)) % 2048 := by
  rw [combine_eq, BitVec.toNat_ofNat]
  exact Nat.mod_eq_of_lt ((Nat.mod_lt _ (by decide)).trans (by decide))

theorem rawOf_le (idx : Nat) (byte : Nat → Byte) : (rawOf idx byte).toNat ≤ 2047 := by
  rcases channelOf_cases idx with ⟨_, _, e, _, hc⟩ | ⟨_, hc⟩ | ⟨_, hc⟩ | ⟨_, hc⟩
  · rw [rawOf_prop _ hc, combine_toNat]
    exact Nat.le_of_lt_succ (Nat.mod_lt _ (by decide))
  · rw [rawOf_binary _ hc]
    cases (byte 22).getLsbD 0 <;> decide
  · rw [rawOf_binary _ hc]
    cases (byte 22).getLsbD 1 <;> decide
  · rw [rawOf_invalid _ hc]
    decide

/-- On raw values the scale loses nothing to the word size. -/
theorem rescale_toNat {raw : BitVec 16} (h : raw.toNat ≤ 2047) : (rescale raw).toNat = raw.toNat * 5 / 8 + 880 := by
  simp only [rescale, Config.scaleMul, Config.scaleDiv, Config.scaleOff, BitVec.toNat_add, BitVec.toNat_udiv,
    BitVec.toNat_mul, BitVec.toNat_ofNat, Nat.reducePow, Nat.reduceMod]
  rw [Nat.mod_eq_of_lt (a := raw.toNat * 5) (by omega), Nat.mod_eq_of_lt (by omega)]

theorem rescale_eq {raw : BitVec 16} (h : raw.toNat ≤ 2047) :
    rescale raw = BitVec.ofNat 16 (raw.toNat * 5 / 8 + 880) := by
  rw [← rescale_toNat h, BitVec.ofNat_toNat, BitVec.setWidth_eq]

/-! ### The layout table and the bit string (R62, R104, R165) -/

/-- Settles O23: sixteen entries, evaluated. -/
theorem layoutTableFollowsPacking : Obligations.LayoutTableFollowsPacking := by
  have all : ∀ c, c < 17 → 1 ≤ c → layoutTable[c - 1]? = some
      { off := 11 * (c - 1) / 8, s1 := 11 * (c - 1) % 8, s2 := 8 - 11 * (c - 1) % 8,
        s3 := if 6 ≤ 11 * (c - 1) % 8 then some (16 - 11 * (c - 1) % 8) else none } := by decide
  exact ⟨rfl, fun c h1 h16 => all c (by omega) h1⟩

/-- The layout entry of the eleven bits from bit n of the string on (R104). -/
def entryAt (n : Nat) : LayoutEntry :=
  { off := n / 8, s1 := n % 8, s2 := 8 - n % 8, s3 := if 6 ≤ n % 8 then some (16 - n % 8) else none }

@[simp] theorem entryAt_s1 (n : Nat) : (entryAt n).s1 = n % 8 := rfl
@[simp] theorem entryAt_s2 (n : Nat) : (entryAt n).s2 = 8 - n % 8 := rfl

theorem channelOf_prop {c : Nat} (h1 : 1 ≤ c) (h16 : c ≤ 16) : channelOf c = .prop (entryAt (11 * (c - 1))) := by
  rw [channelOf, if_neg (by omega), layoutTableFollowsPacking.2 c h1 h16]
  rfl

/-- Bit j of what an entry's third byte adds: nothing where the third shift is `UNUSED` (R105). -/
def LayoutEntry.thirdBit (e : LayoutEntry) (b : Byte) (j : Nat) : Bool :=
  match e.s3 with
  | none => false
  | some n => decide (n ≤ j) && b.getLsbD (j - n)

/-- The three shifts of R162, bit by bit. -/
theorem combine_getLsbD (e : LayoutEntry) (b1 b2 b3 : Byte) (j : Nat) :
    (combine e b1 b2 b3).getLsbD j =
      (decide (j < 11) &&
        (b1.getLsbD (e.s1 + j) || (decide (e.s2 ≤ j) && b2.getLsbD (j - e.s2)) || e.thirdBit b3 j)) := by
  have hthird : (match e.s3 with | none => 0 | some n => b3.toNat <<< n).testBit j = e.thirdBit b3 j := by
    rw [LayoutEntry.thirdBit]
    cases e.s3 <;> simp [BitVec.getLsbD]
  rw [← hthird, BitVec.getLsbD, combine_toNat, show (2048 : Nat) = 2 ^ 11 from rfl, Nat.testBit_mod_two_pow,
    Nat.testBit_or, Nat.testBit_or, Nat.testBit_shiftRight, Nat.testBit_shiftLeft]
  rfl

/-- The third byte of the entry at bit n begins 16 - n % 8 bits into the channel's eleven (R104). -/
theorem entryAt_thirdBit (n : Nat) (b : Byte) {j : Nat} (hj : j < 11) :
    (entryAt n).thirdBit b j = (decide (16 ≤ n % 8 + j) && b.getLsbD (n % 8 + j - 16)) := by
  by_cases h6 : 6 ≤ n % 8
  · have hle : 16 - n % 8 ≤ j ↔ 16 ≤ n % 8 + j := by omega
    have hsub : j - (16 - n % 8) = n % 8 + j - 16 := by omega
    simp only [LayoutEntry.thirdBit, entryAt, if_pos h6, hle, hsub]
  · have hlt : ¬ 16 ≤ n % 8 + j := by omega
    simp only [LayoutEntry.thirdBit, entryAt, if_neg h6, decide_eq_false hlt, Bool.false_and]

/-- Bit j of the eleven bits joined from bit n of the string on is the string's bit n + j. -/
theorem combine_entryAt_getLsbD (n j : Nat) (byte : Nat → Byte) :
    (combine (entryAt n) (byte (n / 8)) (byte (n / 8 + 1)) (byte (n / 8 + 2))).getLsbD j =
      (decide (j < 11) && (byte ((n + j) / 8)).getLsbD ((n + j) % 8)) := by
  rw [combine_getLsbD]
  by_cases hj : j < 11
  swap
  · rw [decide_eq_false hj, Bool.false_and, Bool.false_and]
  rw [entryAt_thirdBit n _ hj]
  rw [entryAt_s1]
  -- the bit n + j lies in the first, the second or the third byte
  rcases (by omega : n % 8 + j < 8 ∨ (8 ≤ n % 8 + j ∧ n % 8 + j < 16) ∨ 16 ≤ n % 8 + j) with h | ⟨h8, h16⟩ | h16
  · have hs2 : ¬ (entryAt n).s2 ≤ j := by rw [entryAt_s2]; omega
    rw [show (n + j) / 8 = n / 8 by omega, show (n + j) % 8 = n % 8 + j by omega, decide_eq_false hs2,
      decide_eq_false (p := 16 ≤ n % 8 + j) (by omega), Bool.false_and, Bool.false_and, Bool.or_false, Bool.or_false]
  · have hs2 : (entryAt n).s2 ≤ j := by rw [entryAt_s2]; omega
    rw [show (n + j) / 8 = n / 8 + 1 by omega, show (n + j) % 8 = j - (entryAt n).s2 by rw [entryAt_s2]; omega,
      BitVec.getLsbD_of_ge _ _ h8, decide_eq_true hs2, decide_eq_false (p := 16 ≤ n % 8 + j) (by omega),
      Bool.false_or, Bool.true_and, Bool.false_and, Bool.or_false]
  · have hs2 : 8 ≤ j - (entryAt n).s2 := by rw [entryAt_s2]; omega
    rw [show (n + j) / 8 = n / 8 + 2 by omega, show (n + j) % 8 = n % 8 + j - 16 by omega,
      BitVec.getLsbD_of_ge _ _ (by omega : 8 ≤ n % 8 + j), BitVec.getLsbD_of_ge _ _ hs2, decide_eq_true h16,
      Bool.and_false, Bool.true_and, Bool.or_false, Bool.false_or]

/-- Bit j of the raw value of channel c is bit 11(c - 1) + j of the string. -/
theorem rawOf_getLsbD {c : Nat} (s : State) (h1 : 1 ≤ c) (h16 : c ≤ 16) (j : Nat) :
    (rawOf c s.byteAt).getLsbD j = (decide (j < 11) && s.stringBit (11 * (c - 1) + j)) := by
  rw [rawOf_prop _ (channelOf_prop h1 h16)]
  exact combine_entryAt_getLsbD (11 * (c - 1)) j s.byteAt

/-! ### The statements -/

/-- Settles O14: the read of the entry's three bytes, with the mask written as a remainder. -/
theorem proportionalChannelRead : Obligations.ProportionalChannelRead := by
  intro c e s hs h1 h16 he
  have hc : channelOf c = .prop e := by rw [channelOf, if_neg (by omega), he]
  rw [exec_getchraw_eq hs (rawValue_prop s he hc), combine_eq]
  rfl

/-- Settles O16: an invalid index reads nothing, and the scale takes 0 to 880. -/
theorem invalidIndexReadsZero : Obligations.InvalidIndexReadsZero := by
  intro idx s hs hidx
  have hc : channelOf idx = .invalid := by
    rcases channelOf_cases idx with ⟨h1, h16, _⟩ | ⟨h, _⟩ | ⟨h, _⟩ | ⟨_, hc⟩
    · omega
    · omega
    · omega
    · exact hc
  have h880 : rescale 0#16 = 880#16 := BitVec.eq_of_toNat_eq (rescale_toNat (by decide))
  refine ⟨exec_getchraw_eq hs (rawValue_invalid s hc), ?_⟩
  rw [exec_getch_eq hs (rawValue_invalid s hc), h880]
  rfl

/-- Settles O17: both reads take the same raw value, which is below 2048. -/
theorem scaledChannelRead : Obligations.ScaledChannelRead := by
  intro idx s hg hs
  have hle := rawOf_le idx s.byteAt
  refine ⟨rawOf idx s.byteAt, hle, exec_getchraw_eq hs (rawValue_eq_rawOf idx hg), ?_, by omega, by omega⟩
  rw [exec_getch_eq hs (rawValue_eq_rawOf idx hg), rescale_eq hle]
  rfl

/-- Settles O18, from the scale's closed form. -/
theorem scaleIsMonotone : Obligations.ScaleIsMonotone := by
  refine ⟨fun a b hab hb => ?_, BitVec.eq_of_toNat_eq (rescale_toNat (by decide)),
    BitVec.eq_of_toNat_eq (rescale_toNat (by decide))⟩
  rw [rescale_toNat (hab.trans hb), rescale_toNat hb]
  omega

/-- Settles O21, bit by bit of the raw value. -/
theorem extractionReadsBitString : Obligations.ExtractionReadsBitString :=
  fun c s hg hs h1 h16 =>
    ⟨rawOf c s.byteAt, exec_getchraw_eq hs (rawValue_eq_rawOf c hg), rawOf_getLsbD s h1 h16⟩

/-- Settles O22: bit j of channel c is bit 11(c - 1) + j of the string, which the packing took from bit j of its value. -/
theorem packedChannelsRoundTrip : Obligations.PackedChannelsRoundTrip := by
  intro ch s hg hs hpack c h1 h16
  have hraw : rawOf c s.byteAt = (ch c).setWidth 16 := by
    refine BitVec.eq_of_getLsbD_eq fun j hj => ?_
    rw [rawOf_getLsbD s h1 h16, BitVec.getLsbD_setWidth, decide_eq_true hj, Bool.true_and]
    by_cases hj11 : j < 11
    · rw [hpack _ (by omega), show (11 * (c - 1) + j) / 11 + 1 = c by omega,
        show (11 * (c - 1) + j) % 11 = j by omega, decide_eq_true hj11, Bool.true_and]
    · rw [decide_eq_false hj11, Bool.false_and, BitVec.getLsbD_of_ge _ _ (by omega)]
  rw [exec_getchraw_eq hs (rawValue_eq_rawOf c hg), hraw]
  rfl

/-- Settles O24: a read's reply is a function of its operand and of the 23 bytes. -/
theorem readsDependOnBufferAlone : Obligations.ReadsDependOnBufferAlone := by
  intro i s s' hi hg hg' hs hs' hbytes
  have hreply : readReply s.byteAt i = readReply s'.byteAt i :=
    readReply_congr i (fun k hk => hbytes k (by omega)) fun k _ => by rw [hbytes 22 (by decide)]
  refine ⟨readReply s.byteAt i, exec_read_eq hi hg hs, ?_⟩
  rw [hreply]
  exact exec_read_eq hi hg' hs'

/-- Settles O25: of the flags byte a read takes at most the low four bits, which the store left. -/
theorem reservedFlagBitsUnread : Obligations.ReservedFlagBitsUnread := by
  intro i s g hi hg hs hflag
  have hreply : readReply (s.putByte 22 g).byteAt i = readReply s.byteAt i := by
    refine readReply_congr i (fun k hk => ?_) fun k hk => ?_
    · rw [State.putByte_byteAt, if_neg (by omega)]
    · rw [State.putByte_byteAt, if_pos rfl, hflag k hk]
  refine ⟨readReply s.byteAt i, exec_read_eq hi hg hs, ?_⟩
  rw [← hreply]
  exact exec_read_eq (s := s.putByte 22 g) hi hg hs

end Sys2Proof.Machine
end

section
/-! PROOFS. Power-on, `BEGIN` and the wait (spec/42_control.md, spec/70_reset_and_hazards.md section 1): the statements
O1, O2, O3, O28 and O29. -/

namespace Sys2Proof.Machine

theorem exec_begin_eq {s : State} (pin : Nat) (m : Mode) (h : s.begun = false) :
    exec (.begin pin m) s = .next (s.initialise pin m) := by
  simp [exec, execBegin, h]

theorem exec_wfPoll_notBegun {s : State} (now : Ms) (h : s.begun = false) :
    exec (.wfPoll now) s = .refused .notBegun := by
  simp [exec, execWfPoll, h]

/-- A poll of a wait in progress is one turn of its loop (R184). -/
theorem exec_wfPoll_eq {s : State} {wt : Wait} (now : Ms) (hbegun : s.begun = true) (hidle : s.busy = false)
    (hw : s.wf = some wt) : exec (.wfPoll now) s = .next (s.pollTurn wt now) := by
  simp [exec, execWfPoll, hbegun, hidle, hw]

theorem exec_wfPoll_noWait {s : State} (now : Ms) (hbegun : s.begun = true) (hidle : s.busy = false)
    (hw : s.wf = none) : exec (.wfPoll now) s = .refused .noWait := by
  simp [exec, execWfPoll, hbegun, hidle, hw]

/-! ### The statements -/

/-- Settles O1: the reset state has not begun, which every command but `BEGIN` asks. -/
theorem powerOnAdmitsOnlyBegin : Obligations.PowerOnAdmitsOnlyBegin :=
  ⟨rfl, rfl, fun _ hi hne => exec_command_notBegun hi hne rfl, fun now => exec_wfPoll_notBegun now rfl,
    fun pin m => ⟨_, exec_begin_eq pin m rfl⟩⟩

/-- Settles O2: what `BEGIN` writes is the initial state, and it runs once. -/
theorem beginEstablishesInitialState : Obligations.BeginEstablishesInitialState :=
  ⟨fun pin m _ h => exec_begin_eq pin m h, fun pin m _ h => exec_begin_again pin m h⟩

/-- Settles O3: `BEGIN` answers only from an un-begun state, and leaves the initial buffer. -/
theorem beginFillsBufferWithInitialBytes : Obligations.BeginFillsBufferWithInitialBytes := by
  intro pin m s t h
  cases exec_next h with
  | begin _ _ _ =>
    refine ⟨Memory.wf_initial, fun k hk => ?_⟩
    exact (Memory.read_initial k).trans (if_pos hk)
  | read _ _ _ hi => cases hi

/-- Settles O28, by the three ways a turn of the wait loop can go. -/
theorem pollEndsOrGoesOn : Obligations.PollEndsOrGoesOn := by
  intro now wt s hbegun hidle hw
  rw [exec_wfPoll_eq now hbegun hidle hw, ← timedOut_iff]
  rcases s.pollTurn_cases wt now with ⟨hclosed, heq⟩ | ⟨hopen, hexp, heq⟩ | ⟨hopen, hexp, heq⟩ <;> rw [heq]
  · exact ⟨fun _ => rfl, fun hopen => by simp [hclosed] at hopen, fun hopen => by simp [hclosed] at hopen⟩
  · exact ⟨fun hclosed => by simp [hopen] at hclosed, fun _ _ => rfl, fun _ hnot => absurd hexp hnot⟩
  · exact ⟨fun hclosed => by simp [hopen] at hclosed, fun _ hover => absurd (hexp.symm.trans hover) Bool.false_ne_true,
      fun _ _ => rfl⟩

/-- Settles O29: subtraction of readings is modulo the clock's range. -/
theorem elapsedTimeWraps : Obligations.ElapsedTimeWraps := by
  intro w t0 now d
  have ht := t0.isLt
  constructor
  · rw [elapsed, BitVec.toNat_sub, show 2 ^ w - t0.toNat + now.toNat = now.toNat + 2 ^ w - t0.toNat by omega]
  · rw [elapsed, BitVec.add_comm, BitVec.add_sub_cancel]

end Sys2Proof.Machine
end

section
/-! PROOFS. Who writes what (spec/10_state.md section 6, spec/40_receiver.md section 3, spec/42_control.md section 2):
the statements O48, O49 and O50, each a case analysis of the effects an operation can have. -/

namespace Sys2Proof.Machine

/-- What a read of the consumer side leaves is the state it met, but for the guard and the results. -/
theorem read_effect_frame {s t : State} (r : Reply) (h : t = s ∨ t = s.setGuard false) :
    (t.reply r).rxEn = s.rxEn ∧ (t.reply r).wi = s.wi ∧ (t.reply r).payload = s.payload := by
  rcases h with rfl | rfl <;> exact ⟨rfl, rfl, rfl⟩

/-- Settles O48: of all effects only `BEGIN`, an armed wait and a terminator word in on-demand mode write `rx_en`. -/
theorem pathEnableWriters : Obligations.PathEnableWriters := by
  intro i s t h hne
  have hwi : ∀ {w : BitVec 5}, w.toNat = 24 → w = 24 := fun h => BitVec.toNat_inj.mp h
  cases exec_next h with
  | begin pin m => exact .inl ⟨pin, m, rfl, rfl⟩
  | waitArmed timeout now _ hm => exact .inr (.inl ⟨timeout, now, rfl, hm, rfl⟩)
  | terminatorWord lvl _ _ hp h24 =>
    by_cases hm : s.mode = .onDemand
    · rw [if_pos hm]
      exact .inr (.inr ⟨.inr ⟨lvl, rfl, hp⟩, hwi h24, hm, rfl⟩)
    · rw [if_neg hm] at hne
      exact absurd rfl hne
  | wTerm d h24 =>
    by_cases hm : s.mode = .onDemand
    · rw [if_pos hm]
      exact .inr (.inr ⟨.inl ⟨d, rfl⟩, hwi h24, hm, rfl⟩)
    · rw [if_neg hm] at hne
      exact absurd rfl hne
  | read _ r u _ _ hu => exact absurd (read_effect_frame r hu).1 hne
  | _ => exact absurd rfl hne

/-- A store changes at most the byte it is made at, and leaves its value there. -/
theorem putByte_changes {s : State} {k a : Nat} {v : Byte} (h : (s.putByte k v).byteAt a ≠ s.byteAt a) :
    a = k ∧ (s.putByte k v).byteAt a = v := by
  rw [State.putByte_byteAt] at h ⊢
  split_ifs at h ⊢ with hk
  · exact ⟨hk, rfl⟩
  · exact absurd rfl h

/-- Closing the path in on-demand mode leaves the buffer. -/
theorem byteAt_closeOnDemand (s : State) (a : Nat) :
    (if s.mode = .onDemand then s.closePath else s).byteAt a = s.byteAt a := by
  split_ifs <;> rfl

/-- Settles O49: of all effects only `BEGIN` and a payload word write the buffer, the latter at its offset. -/
theorem bufferWriters : Obligations.BufferWriters := by
  intro i s t a h hne
  cases exec_next h with
  | begin pin m => exact .inl ⟨pin, m, rfl⟩
  | payloadWord lvl _ _ hp h1 h23 =>
    obtain ⟨ha, hv⟩ := putByte_changes (s := s) hne
    exact .inr ⟨h1, h23, ha, .inr ⟨lvl, rfl, hp, hv⟩⟩
  | wStore d h1 h23 =>
    obtain ⟨ha, hv⟩ := putByte_changes (s := s) hne
    exact .inr ⟨h1, h23, ha, .inl ⟨d, rfl, hv⟩⟩
  | terminatorWord => exact absurd (byteAt_closeOnDemand s.clearTick a) hne
  | wTerm => exact absurd (byteAt_closeOnDemand s a) hne
  | read _ r u _ _ hu => exact absurd (congrArg (Memory.read a) (read_effect_frame r hu).2.2) hne
  | _ => exact absurd rfl hne

/-- The sentinel word leaves the word index at 0 or moves it on from 0. -/
theorem sentinel_target {wi : BitVec 5} (d : Byte) (h0 : wi.toNat = 0) :
    (if d = 0x0F#8 then 1 else 0) = (0 : BitVec 5) ∨ (if d = 0x0F#8 then 1 else 0) = wi + 1 := by
  have hwi : wi = 0 := BitVec.toNat_inj.mp h0
  subst hwi
  split_ifs
  · exact .inr rfl
  · exact .inl rfl

/-- Settles O50: of all effects only `BEGIN`, the ninth sample and the word operations it runs write `wi`. -/
theorem wordIndexWriters : Obligations.WordIndexWriters := by
  intro i s t h hne
  cases exec_next h with
  | begin pin m => exact ⟨.inl ⟨pin, m, rfl⟩, .inl rfl⟩
  | parityError lvl => exact ⟨.inr (.inl ⟨lvl, rfl⟩), .inl rfl⟩
  | sentinelWord lvl _ _ _ h0 => exact ⟨.inr (.inl ⟨lvl, rfl⟩), sentinel_target _ h0⟩
  | payloadWord lvl => exact ⟨.inr (.inl ⟨lvl, rfl⟩), .inr rfl⟩
  | terminatorWord lvl => exact ⟨.inr (.inl ⟨lvl, rfl⟩), .inl rfl⟩
  | wSentinel d h0 => exact ⟨.inr (.inr (.inl ⟨d, rfl⟩)), sentinel_target d h0⟩
  | wStore d => exact ⟨.inr (.inr (.inr (.inl ⟨d, rfl⟩))), .inr rfl⟩
  | wTerm d => exact ⟨.inr (.inr (.inr (.inr ⟨d, rfl⟩))), .inl rfl⟩
  | read _ r u _ _ hu => exact absurd (read_effect_frame r hu).2.1 hne
  | _ => exact absurd rfl hne

end Sys2Proof.Machine
end

section
/-! PROOFS. Steps (spec/20_memory.md section 5, spec/60_exceptions.md section 3): what a step serves, the events of the
line as one relation, and the statements O36, O42, O43, O44, O51 and O52, assembled from these. -/

namespace Sys2Proof.Machine

/-! ### The format of what is decoded -/

/-- The format belongs to CX, the main context: a command word or a poll. -/
def isMainFormat : Format → Bool
  | .commandWord => true
  | .pollStep => true
  | .lineEvent => false
  | .lineCell => false
  | .lineWord => false

theorem isMainPacket_eq (p : Packet) : isMainPacket p = isMainFormat p.format := by
  cases p <;> rfl

theorem encode_format (i : Instr) : (encode i).format = i.rowFormat := by
  cases i with
  | edgeIgn e => exact Laws.EncodeFormat.edgeIgn e
  | _ => rfl

/-- A packet decodes to an operation of its own format. -/
theorem decode_format {sel : Selection} {p : Packet} {i : Instr} (h : decode sel p = .ok i) :
    i.rowFormat = p.format := by
  obtain ⟨_, _, henc⟩ := decodeGivesSelectedOperation sel p i h
  rw [← encode_format, henc]
  cases p <;> rfl

theorem rowFormat_of_isRead {i : Instr} (h : isRead i = true) : i.rowFormat = .commandWord := by
  cases i with
  | getchraw idx => rfl
  | getch idx => rfl
  | sigloss => rfl
  | failsafe => rfl
  | _ => cases h

/-! ### What a step serves -/

theorem step_head {s : State} {p : Packet} {rest : List Packet} (hin : s.inputs = p :: rest)
    (hfree : held s.busy s.guard p = false) : step s = serve p (s.withInputs rest) := by
  simp only [step, hin, takeInput_head hfree]

/-- Outside whole words, serving an input is one event. -/
theorem serve_eq_perform {p : Packet} (hp : p.format ≠ .lineWord) (s : State) : serve p s = perform p s := by
  cases p with
  | lineWord cells => exact absurd rfl hp
  | _ => rfl

theorem perform_of_decode {p : Packet} {s : State} {i : Instr} (h : decode s.selection p = .ok i) :
    perform p s = exec i (s.deliver p) := by
  simp only [perform, h]

theorem perform_of_reject {p : Packet} {s : State} {r : Reject} (h : decode s.selection p = .error r) :
    perform p s = .refused (.illegalInput r) := by
  simp only [perform, h]

/-- One event of the line: a transition or a tick that answers a next state. -/
def WireEvent (s t : State) : Prop :=
  ∃ p : Packet, (p.format = .lineEvent ∨ p.format = .lineCell) ∧ perform p s = .next t

/-- What one event of the line does: the effect, on the delivered state, of an operation of the event's own format. -/
theorem WireEvent.effect {s t : State} (h : WireEvent s t) :
    ∃ (p : Packet) (i : Instr), (p.format = .lineEvent ∨ p.format = .lineCell) ∧ i.rowFormat = p.format ∧
      Effect (s.deliver p) i t := by
  obtain ⟨p, hp, h⟩ := h
  obtain ⟨i, hd, he⟩ := perform_next h
  exact ⟨p, i, hp, decode_format hd, exec_next he⟩

theorem performAll_wire {es : List Packet} {s t : State}
    (hes : ∀ e ∈ es, e.format = .lineEvent ∨ e.format = .lineCell) (h : performAll es s = .next t) :
    Relation.ReflTransGen WireEvent s t := by
  induction es generalizing s with
  | nil => cases h; exact .refl
  | cons e es ih =>
    obtain ⟨u, hu, ht⟩ := Result.andThen_eq_next.mp h
    exact .head ⟨e, hes e (by simp), hu⟩ (ih (fun x hx => hes x (by simp [hx])) ht)

theorem wordEvents_format (cells : BitVec 12) :
    ∀ e ∈ wordEvents cells, e.format = .lineEvent ∨ e.format = .lineCell := by
  simp [wordEvents, samples, Packet.format]

/-- Serving an input of the line is a chain of its events. -/
theorem serve_wire {p : Packet} {s t : State} (hp : isMainPacket p = false) (h : serve p s = .next t) :
    Relation.ReflTransGen WireEvent s t := by
  cases p with
  | lineEvent levels => exact .single ⟨_, .inl rfl, h⟩
  | lineCell level => exact .single ⟨_, .inr rfl, h⟩
  | lineWord cells =>
    simp only [serve, performWord] at h
    split_ifs at h
    exact performAll_wire (wordEvents_format cells) h
  | command cw pin timeout now => cases hp
  | poll now => cases hp

/-- Everything a step can be: one operation of CX, taken while the receiver is idle, or a chain of events of the line. -/
theorem step_main_or_wire {s t : State} (h : step s = .next t) :
    ∃ p rest, takeInput s.busy s.guard s.inputs = some (p, rest) ∧
      ((isMainPacket p = true ∧ s.busy = false ∧
          ∃ i, isMainFormat i.rowFormat = true ∧ Effect ((s.withInputs rest).deliver p) i t) ∨
        (isMainPacket p = false ∧ Relation.ReflTransGen WireEvent (s.withInputs rest) t)) := by
  obtain ⟨p, rest, htake, hserve⟩ := step_next h
  refine ⟨p, rest, htake, ?_⟩
  cases hp : isMainPacket p with
  | false => exact .inr ⟨rfl, serve_wire hp hserve⟩
  | true =>
    have hidle : s.busy = false := by
      have hfree := (takeInput_eq_some htake).1
      simpa [held, hp] using hfree
    have hword : p.format ≠ .lineWord := fun hf => by simp [isMainPacket_eq, hf, isMainFormat] at hp
    rw [serve_eq_perform hword] at hserve
    obtain ⟨i, hd, he⟩ := perform_next hserve
    exact .inl ⟨rfl, hidle, i, by rw [decode_format hd, ← isMainPacket_eq, hp], exec_next he⟩

/-! ### What the line leaves of the consumer side -/

/-- The two states agree on the items of the consumer side, the platform configuration and the inputs. -/
structure State.SameConsumer (s t : State) : Prop where
  begun : t.begun = s.begun
  mode : t.mode = s.mode
  guard : t.guard = s.guard
  wf : t.wf = s.wf
  watchedPin : t.watchedPin = s.watchedPin
  tickPeriod : t.tickPeriod = s.tickPeriod
  inputs : t.inputs = s.inputs
  returned : t.returned = s.returned

theorem State.SameConsumer.refl (s : State) : s.SameConsumer s := by
  constructor <;> rfl

theorem State.SameConsumer.trans {s t u : State} (h : s.SameConsumer t) (k : t.SameConsumer u) : s.SameConsumer u where
  begun := k.begun.trans h.begun
  mode := k.mode.trans h.mode
  guard := k.guard.trans h.guard
  wf := k.wf.trans h.wf
  watchedPin := k.watchedPin.trans h.watchedPin
  tickPeriod := k.tickPeriod.trans h.tickPeriod
  inputs := k.inputs.trans h.inputs
  returned := k.returned.trans h.returned

/-- An operation of the receiver writes none of these items. -/
theorem Effect.sameConsumer {s t : State} {i : Instr} (h : Effect s i t) (hi : isMainFormat i.rowFormat = false) :
    s.SameConsumer t := by
  cases h with
  | terminatorWord => split_ifs <;> constructor <;> rfl
  | wTerm => split_ifs <;> constructor <;> rfl
  | begin => cases hi
  | waitDone => cases hi
  | waitArmed => cases hi
  | pollComplete => cases hi
  | pollTimeout => cases hi
  | pollAgain => cases hi
  | read _ _ _ hr => simp [rowFormat_of_isRead hr, isMainFormat] at hi
  | _ => constructor <;> rfl

theorem WireEvent.sameConsumer {s t : State} (h : WireEvent s t) : s.SameConsumer t := by
  obtain ⟨p, i, hp, hi, he⟩ := h.effect
  have hdeliver : s.SameConsumer (s.deliver p) := by constructor <;> rfl
  refine hdeliver.trans (he.sameConsumer ?_)
  rcases hp with hp | hp <;> rw [hi, hp] <;> rfl

theorem wire_sameConsumer {s t : State} (h : Relation.ReflTransGen WireEvent s t) : s.SameConsumer t := by
  induction h with
  | refl => exact .refl s
  | tail _ hev ih => exact ih.trans hev.sameConsumer

/-! ### A closed path (R80) -/

/-- Begun, the path closed and the receiver idle. -/
abbrev State.PathClosed (s : State) : Prop :=
  s.begun = true ∧ s.rxEn = false ∧ s.busy = false

/-- With the path closed and the receiver idle an event of the line writes neither the buffer nor the word index. -/
theorem WireEvent.closed {s t : State} (h : WireEvent s t) (hs : s.PathClosed) :
    t.PathClosed ∧ t.payload = s.payload ∧ t.wi = s.wi := by
  obtain ⟨hbegun, hclosed, hidle⟩ := hs
  obtain ⟨p, i, hp, hi, he⟩ := h.effect
  have hbusy : ¬ (s.deliver p).busy = true := by simp [hidle]
  have hword : i.rowFormat ≠ .lineWord := by rcases hp with hp | hp <;> rw [hi, hp] <;> decide
  have hmain : isMainFormat i.rowFormat = false := by rcases hp with hp | hp <;> rw [hi, hp] <;> rfl
  cases he with
  | rxStart hr => simp [State.WordReady, hclosed] at hr
  | rxData _ hb => exact absurd hb hbusy
  | parityError _ hb => exact absurd hb hbusy
  | sentinelWord _ hb => exact absurd hb hbusy
  | payloadWord _ hb => exact absurd hb hbusy
  | terminatorWord _ hb => exact absurd hb hbusy
  | wSentinel => exact absurd rfl hword
  | wStore => exact absurd rfl hword
  | wTerm => exact absurd rfl hword
  | fallingEdge => exact ⟨⟨hbegun, hclosed, hidle⟩, rfl, rfl⟩
  | unusableEdge => exact ⟨⟨hbegun, hclosed, hidle⟩, rfl, rfl⟩
  | tickIgn => exact ⟨⟨hbegun, hclosed, hidle⟩, rfl, rfl⟩
  | read _ _ _ hr => simp [rowFormat_of_isRead hr, isMainFormat] at hmain
  | _ => cases hmain

theorem wire_closed {s t : State} (h : Relation.ReflTransGen WireEvent s t) (hs : s.PathClosed) :
    t.PathClosed ∧ t.payload = s.payload ∧ t.wi = s.wi := by
  induction h with
  | refl => exact ⟨hs, rfl, rfl⟩
  | tail _ hev ih =>
    obtain ⟨hu, hpay, hwi⟩ := ih
    obtain ⟨ht, hpay', hwi'⟩ := hev.closed hu
    exact ⟨ht, hpay'.trans hpay, hwi'.trans hwi⟩

/-- An operation of CX on a begun block leaves the configuration, the receiver and the buffer, and opens a closed path
only by arming a wait in on-demand mode (R34, R37, R80). -/
theorem Effect.main_begun {s t : State} {i : Instr} (h : Effect s i t) (hi : isMainFormat i.rowFormat = true)
    (hs : s.begun = true) :
    (t.begun = true ∧ t.mode = s.mode ∧ t.watchedPin = s.watchedPin ∧ t.tickPeriod = s.tickPeriod) ∧
      (t.payload = s.payload ∧ t.busy = s.busy ∧ t.wi = s.wi) ∧
      (t.rxEn = s.rxEn ∨ s.mode = .onDemand ∧ s.wf = none ∧ t.wf.isSome = true) := by
  cases h with
  | begin _ _ hnot => simp [hs] at hnot
  | waitDone => exact ⟨⟨hs, rfl, rfl, rfl⟩, ⟨rfl, rfl, rfl⟩, .inl rfl⟩
  | waitArmed _ _ hr hm => exact ⟨⟨hs, rfl, rfl, rfl⟩, ⟨rfl, rfl, rfl⟩, .inr ⟨hm, hr.2.2, rfl⟩⟩
  | pollComplete => exact ⟨⟨hs, rfl, rfl, rfl⟩, ⟨rfl, rfl, rfl⟩, .inl rfl⟩
  | pollTimeout => exact ⟨⟨hs, rfl, rfl, rfl⟩, ⟨rfl, rfl, rfl⟩, .inl rfl⟩
  | pollAgain => exact ⟨⟨hs, rfl, rfl, rfl⟩, ⟨rfl, rfl, rfl⟩, .inl rfl⟩
  | read _ _ _ _ _ hu =>
    rcases hu with rfl | rfl <;> exact ⟨⟨hs, rfl, rfl, rfl⟩, ⟨rfl, rfl, rfl⟩, .inl rfl⟩
  | _ => cases hi

/-! ### The statements -/

/-- Settles O36: the head of the inputs is one event, whose operation runs on the delivered state. -/
theorem stepRunsDecodedOperation : Obligations.StepRunsDecodedOperation := by
  intro s p rest i hin hfree hword hd
  rw [step_head hin hfree, serve_eq_perform hword]
  exact perform_of_decode (s := s.withInputs rest) hd

/-- Settles O42: a busy receiver holds CX's inputs back, so the step is a chain of events of the line. -/
theorem busyReceiverExcludesConsumer : Obligations.BusyReceiverExcludesConsumer := by
  intro s t hbusy h
  obtain ⟨p, rest, htake, ⟨_, hidle, _⟩ | ⟨hp, hwire⟩⟩ := step_main_or_wire h
  · simp [hbusy] at hidle
  · have hsame := wire_sameConsumer hwire
    refine ⟨hsame.returned, hsame.wf, hsame.mode, hsame.begun, hsame.guard, ?_⟩
    obtain ⟨_, before, after, hin, rfl, _⟩ := takeInput_eq_some htake
    rw [hsame.inputs, hin, State.withInputs_inputs, List.filter_append, List.filter_append,
      List.filter_cons_of_neg (by simp [hp])]

/-- A step that finds every input held back is stuck. -/
theorem step_allHeld {s : State} (h : ∀ p ∈ s.inputs, held s.busy s.guard p = true) :
    step s = .fault (stuckReason s) := by
  simp only [step, takeInput_eq_none.mpr h]

theorem stuckReason_busy {s : State} (h : s.busy = true) : stuckReason s = .tickStall :=
  if_pos h

theorem stuckReason_idle {s : State} (hidle : s.busy = false) (hin : s.inputs = []) :
    stuckReason s = if s.wf.isSome = true then .waitUnfinished else .inputsUsedUp := by
  simp [stuckReason, hidle, hin]

/-- Settles O43: while busy, commands and polls are held back. -/
theorem tickStallIsStuck : Obligations.TickStallIsStuck := by
  intro s hbusy hmain
  have hheld : ∀ p ∈ s.inputs, held s.busy s.guard p = true := fun p hp => by simp [held, hbusy, hmain p hp]
  rw [step_allHeld hheld, stuckReason_busy hbusy]

/-- Settles O44: with no input the reason is read off `busy` and the wait. -/
theorem endOfInputs : Obligations.EndOfInputs := by
  intro s hin
  rw [step_allHeld (by simp [hin])]
  refine ⟨fun hbusy => by rw [stuckReason_busy hbusy], fun hidle hw => ?_, fun hidle hw => ?_⟩
  · rw [stuckReason_idle hidle hin, if_pos hw]
  · rw [stuckReason_idle hidle hin, hw]
    rfl

/-- Settles O51: the line never writes these items, and of CX's operations only `BEGIN` does, which runs un-begun. -/
theorem modeFixedAfterBegin : Obligations.ModeFixedAfterBegin := by
  intro s t hbegun h
  obtain ⟨p, rest, _, ⟨_, _, i, hi, he⟩ | ⟨_, hwire⟩⟩ := step_main_or_wire h
  · exact (he.main_begun hi hbegun).1
  · have hsame := wire_sameConsumer hwire
    exact ⟨hsame.begun.trans hbegun, hsame.mode, hsame.watchedPin, hsame.tickPeriod⟩

/-- Settles O52: the line finds the path closed at each of its events, and CX opens it only by arming a wait. -/
theorem closedPathKeepsBuffer : Obligations.ClosedPathKeepsBuffer := by
  intro s t hbegun hclosed hidle h
  obtain ⟨p, rest, _, ⟨_, _, i, hi, he⟩ | ⟨_, hwire⟩⟩ := step_main_or_wire h
  · obtain ⟨_, ⟨hpay, hbusy, hwi⟩, hrx⟩ := he.main_begun hi hbegun
    refine ⟨hpay, hbusy.trans hidle, hwi, fun hopen => ?_⟩
    rcases hrx with hrx | harmed
    · exact absurd (hopen.symm.trans (hrx.trans hclosed)) Bool.noConfusion
    · exact harmed
  · obtain ⟨⟨_, hclosed', hidle'⟩, hpay, hwi⟩ := wire_closed hwire ⟨hbegun, hclosed, hidle⟩
    exact ⟨hpay, hidle', hwi, fun hopen => absurd (hopen.symm.trans hclosed') Bool.noConfusion⟩

end Sys2Proof.Machine
end

section
/-! PROOFS. The invariant (spec/10_state.md): what keeps it, operation by operation, and the statements O45, O46 and O47,
assembled from these. -/

namespace Sys2Proof.Machine

/-! ### The working registers of a word -/

/-- A data sample sets no bit of the accumulator above its own (R21). -/
theorem accAfter_lt {acc : BitVec 8} {bi : BitVec 4} (lvl : Level) (h1 : 1 ≤ bi.toNat)
    (hacc : acc.toNat < 2 ^ (bi.toNat - 1)) : (accAfter acc bi lvl).toNat < 2 ^ bi.toNat := by
  have hpow : 2 ^ (bi.toNat - 1) < 2 ^ bi.toNat := Nat.pow_lt_pow_right (by decide) (by omega)
  cases lvl with
  | L => exact hacc.trans hpow
  | H =>
    have hone : (1#8 <<< (bi.toNat - 1)).toNat ≤ 2 ^ (bi.toNat - 1) := by
      rw [BitVec.toNat_shiftLeft, Nat.shiftLeft_eq]
      exact (Nat.mod_le _ _).trans (by simp)
    rw [accAfter, BitVec.toNat_or]
    exact Nat.or_lt_two_pow (hacc.trans hpow) (hone.trans_lt hpow)

/-- A high sample into a clear bit of a byte flips the byte's parity. -/
theorem parityBit_or_twoPow {acc : BitVec 8} {k : Nat} (hk : k < 8) (hclear : acc.getLsbD k = false) :
    parityBit (acc ||| BitVec.twoPow 8 k) = !parityBit acc := by
  simp only [parityBit, BitVec.getLsbD_or, BitVec.getLsbD_twoPow]
  interval_cases k <;> simp [hclear, -BitVec.getLsbD_eq_getElem]

/-- `par` keeps counting the high samples in `acc` (R22). -/
theorem parityAfter_count {acc par : BitVec 8} {bi : BitVec 4} (lvl : Level) (h1 : 1 ≤ bi.toNat) (h8 : bi.toNat ≤ 8)
    (hacc : acc.toNat < 2 ^ (bi.toNat - 1)) (hpar : par = if parityBit acc then 0x00#8 else 0xFF#8) :
    parityAfter par lvl = if parityBit (accAfter acc bi lvl) then 0x00#8 else 0xFF#8 := by
  cases lvl with
  | L => exact hpar
  | H =>
    have hclear : acc.getLsbD (bi.toNat - 1) = false := Nat.testBit_lt_two_pow hacc
    rw [accAfter_eq, if_pos rfl, parityBit_or_twoPow (by omega) hclear, hpar]
    cases parityBit acc <;> rfl

theorem parityAfter_value {par : BitVec 8} (lvl : Level) (h : par = 0xFF#8 ∨ par = 0x00#8) :
    parityAfter par lvl = 0xFF#8 ∨ parityAfter par lvl = 0x00#8 := by
  cases lvl with
  | L => exact h
  | H => rcases h with rfl | rfl <;> decide

theorem bitIndex_succ {bi : BitVec 4} (h8 : bi.toNat ≤ 8) : (bi + 1).toNat = bi.toNat + 1 := by
  rw [BitVec.toNat_add]
  exact Nat.mod_eq_of_lt (by simp; omega)

theorem wordIndex_succ {wi : BitVec 5} (h23 : wi.toNat ≤ 23) : (wi + 1).toNat = wi.toNat + 1 := by
  rw [BitVec.toNat_add]
  exact Nat.mod_eq_of_lt (by simp; omega)

/-! ### What keeps the invariant -/

/-- The end of a word keeps the invariant, whatever flags the ninth tick's event has set. -/
theorem State.Inv.endWord {s : State} (h : s.Inv) (p : Packet) : (s.deliver p).clearTick.leaveWord.Inv :=
  { h with
    busyOpen := Bool.noConfusion, bitIndex := Bool.noConfusion, parityCount := Bool.noConfusion
    accBits := Bool.noConfusion, tickSeen := Bool.noConfusion, edgeLatch := Bool.noConfusion }

theorem State.Inv.setWi {s : State} {w : BitVec 5} (h : s.Inv) (hw : w.toNat ≤ 24) : (s.setWi w).Inv :=
  { h with wordIndex := hw }

theorem State.Inv.putByte {s : State} {k : Nat} (v : Byte) (h : s.Inv) (hk : k < 23) : (s.putByte k v).Inv :=
  { h with bufferForm := Memory.wf_write hk h.bufferForm }

/-- The path may close between words, in on-demand mode. -/
theorem State.Inv.closePath {s : State} (h : s.Inv) (hidle : s.busy = false) (hm : s.mode = .onDemand) :
    s.closePath.Inv :=
  { h with
    busyOpen := fun hb => absurd (hb.symm.trans hidle) Bool.noConfusion
    pathOpen := fun _ hc => Mode.noConfusion (hc.symm.trans hm) }

/-- The flags an event sets: a transition leaves the tick flag, a tick the edge latch, a command or poll both
(R44, R45). -/
theorem deliver_flags (s : State) (p : Packet) :
    (p.format ≠ .lineCell → (s.deliver p).tickReady = s.tickReady) ∧
      (p.format ≠ .lineEvent → (s.deliver p).edgePend = s.edgePend) := by
  cases p <;> simp [Packet.format, isEdgePacket, isTickPacket]

theorem State.Inv.deliverMain {s : State} {p : Packet} (h : s.Inv) (hp : isMainFormat p.format = true) :
    (s.deliver p).Inv := by
  obtain ⟨htick, hedge⟩ := deliver_flags s p
  exact { h with
    tickSeen := fun hb => (htick fun hf => by simp [hf, isMainFormat] at hp).trans (h.tickSeen hb)
    edgeLatch := fun he => h.edgeLatch ((hedge fun hf => by simp [hf, isMainFormat] at hp).symm.trans he) }

theorem State.Inv.withInputs {s : State} (h : s.Inv) (ps : List Packet) : (s.withInputs ps).Inv :=
  { h with }

/-- An operation of CX, taken while the receiver is idle, keeps the invariant. -/
theorem State.Inv.main {s t : State} {i : Instr} (h : s.Inv) (he : Effect s i t)
    (hi : isMainFormat i.rowFormat = true) (hidle : s.busy = false) : t.Inv := by
  have hnotBusy : ∀ {q : Prop}, s.busy = true → q := fun hb => absurd (hb.symm.trans hidle) Bool.noConfusion
  cases he with
  | begin pin m =>
    exact { h with
      wordIndex := Nat.zero_le _
      busyOpen := Bool.noConfusion, bitIndex := Bool.noConfusion, parityCount := Bool.noConfusion
      accBits := Bool.noConfusion, tickSeen := Bool.noConfusion, edgeLatch := Bool.noConfusion
      guardFree := rfl
      waitMode := Bool.noConfusion
      pathOpen := fun _ hm => by rw [State.initialise_mode] at hm; rw [State.initialise_rxEn, hm]; rfl
      pinWatched := rfl
      bufferForm := Memory.wf_initial }
  | waitDone => exact { h with }
  | waitArmed _ _ hr hm =>
    exact { h with
      busyOpen := hnotBusy
      edgeLatch := Bool.noConfusion
      waitMode := fun _ => ⟨hr.1, hm⟩
      pathOpen := fun _ _ => rfl }
  | pollComplete => exact { h with waitMode := Bool.noConfusion }
  | pollTimeout => exact { h with waitMode := Bool.noConfusion }
  | pollAgain => exact h
  | read _ r u _ _ hu =>
    rcases hu with rfl | rfl
    · exact { h with }
    · exact { h with guardFree := rfl }
  | _ => cases hi

/-- An event of the line keeps the invariant. -/
theorem State.Inv.wire {s t : State} (h : s.Inv) (hev : WireEvent s t) : t.Inv := by
  obtain ⟨p, i, hp, hi, he⟩ := hev.effect
  obtain ⟨htick, hedge⟩ := deliver_flags s p
  have hword : i.rowFormat ≠ .lineWord := by rcases hp with hp | hp <;> rw [hi, hp] <;> decide
  have hmain : isMainFormat i.rowFormat = false := by rcases hp with hp | hp <;> rw [hi, hp] <;> rfl
  have hend := h.endWord p
  cases he with
  | rxStart hr =>
    exact { h with
      parityValue := .inl rfl
      busyOpen := fun _ => ⟨hr.1, hr.2.1⟩
      bitIndex := fun _ => ⟨Nat.le_refl 1, by simp⟩
      parityCount := fun _ => (by decide : 0xFF#8 = if parityBit 0x00#8 then 0x00#8 else 0xFF#8)
      accBits := fun _ => by simp
      tickSeen := fun _ => rfl
      edgeLatch := fun _ => rfl }
  | rxData lvl hb h1 h8 =>
    have hbi : (s.bi + 1).toNat = s.bi.toNat + 1 := bitIndex_succ h8
    exact { h with
      parityValue := parityAfter_value lvl h.parityValue
      bitIndex := fun _ => ⟨hbi.symm ▸ Nat.le_add_left _ _, hbi.symm ▸ Nat.succ_le_succ h8⟩
      parityCount := fun _ => parityAfter_count lvl h1 h8 (h.accBits hb) (h.parityCount hb)
      accBits := fun _ => by
        rw [State.takeSample_bi, State.clearTick_bi, State.deliver_bi, hbi]
        exact accAfter_lt lvl h1 (h.accBits hb)
      tickSeen := fun _ => rfl
      edgeLatch := fun _ => hb }
  | parityError => exact hend.setWi (w := 0) (by decide)
  | sentinelWord lvl _ _ _ h0 => exact hend.setWi (w := if ~~~s.acc = 0x0F#8 then 1 else 0) (by split_ifs <;> decide)
  | payloadWord lvl _ _ _ h1 h23 =>
    rw [State.deliver_wi] at h1 h23
    have hoff : s.wi.toNat - 1 < 23 := by omega
    have hwi : (s.wi + 1).toNat ≤ 24 := by rw [wordIndex_succ h23]; omega
    exact (hend.putByte (~~~s.acc) hoff).setWi hwi
  | terminatorWord lvl =>
    by_cases hm : s.mode = .onDemand
    · rw [if_pos (show (s.deliver p).mode = .onDemand from hm)]
      exact (hend.closePath rfl hm).setWi (w := 0) (by decide)
    · rw [if_neg (show ¬ (s.deliver p).mode = .onDemand from hm)]
      exact hend.setWi (w := 0) (by decide)
  | wSentinel => exact absurd rfl hword
  | wStore => exact absurd rfl hword
  | wTerm => exact absurd rfl hword
  | fallingEdge =>
    have hcell : p.format ≠ .lineCell := hi ▸ nofun
    exact { h with
      tickSeen := fun hb => (htick hcell).trans (h.tickSeen hb)
      edgeLatch := Bool.noConfusion }
  | unusableEdge hnot =>
    have hcell : p.format ≠ .lineCell := hi ▸ nofun
    exact { h with
      tickSeen := fun hb => (htick hcell).trans (h.tickSeen hb)
      edgeLatch := fun hpend => by
        by_contra hb
        have hidle : s.busy = false := Bool.eq_false_iff.mpr hb
        have hlatch : s.edgePend = false := Bool.eq_false_iff.mpr fun he => hb (h.edgeLatch he)
        simp only [State.deliver_edgePend, hlatch, Bool.false_or, Bool.and_eq_true] at hpend
        exact hnot ⟨hpend.1.2, hpend.2, hidle⟩ }
  | tickIgn lvl hidle =>
    have hevent : p.format ≠ .lineEvent := hi ▸ nofun
    exact { h with
      tickSeen := fun hb => absurd (hb.symm.trans hidle) Bool.noConfusion
      edgeLatch := fun hpend => h.edgeLatch ((hedge hevent).symm.trans hpend) }
  | read _ _ _ hr => simp [rowFormat_of_isRead hr, isMainFormat] at hmain
  | _ => cases hmain

theorem State.Inv.wires {s t : State} (h : s.Inv) (hchain : Relation.ReflTransGen WireEvent s t) : t.Inv := by
  induction hchain with
  | refl => exact h
  | tail _ hev ih => exact ih.wire hev

/-- Settles O45: the reset state, field by field. -/
theorem resetMeetsInvariant : Obligations.ResetMeetsInvariant where
  wordIndex := by decide
  parityValue := .inr rfl
  busyOpen := Bool.noConfusion
  bitIndex := Bool.noConfusion
  parityCount := Bool.noConfusion
  accBits := Bool.noConfusion
  tickSeen := Bool.noConfusion
  edgeLatch := Bool.noConfusion
  guardFree := rfl
  waitMode := Bool.noConfusion
  pathOpen := Bool.noConfusion
  pinWatched := rfl
  bufferForm := Memory.wf_nil

/-- Settles O46: a step is one operation of CX in an idle state, or a chain of events of the line. -/
theorem stepKeepsInvariant : Obligations.StepKeepsInvariant := by
  intro s t hinv h
  obtain ⟨p, rest, _, ⟨hp, hidle, i, hi, he⟩ | ⟨_, hwire⟩⟩ := step_main_or_wire h
  · exact ((hinv.withInputs rest).deliverMain (isMainPacket_eq p ▸ hp)).main he hi hidle
  · exact (hinv.withInputs rest).wires hwire

/-! ### Where a step stops -/

/-- From the invariant a tick answers a next state: the bit index selects an operation, and the word index another. -/
theorem State.Inv.tick_completes {s : State} (h : s.Inv) (c : BitVec 1) : ∃ t, perform (.lineCell c) s = .next t := by
  cases hb : s.busy with
  | false =>
    rw [perform_of_decode (decode_idleCell (sel := s.selection) c hb)]
    exact ⟨_, idleTickIgnored.1 _ (s.deliver (.lineCell c)) hb⟩
  | true =>
    obtain ⟨h1, h9⟩ := h.bitIndex hb
    rcases Nat.lt_or_eq_of_le h9 with h8 | h9
    · rw [perform_of_decode (decode_dataCell (sel := s.selection) c hb h1 (by simp; omega))]
      exact ⟨_, exec_rxData_eq (s := s.deliver (.lineCell c)) _ hb h1 (by simp; omega)⟩
    · rw [perform_of_decode (decode_parityCell (sel := s.selection) c hb h9)]
      cases hp : parityOk s.par (if c = 1#1 then .H else .L) with
      | false => exact ⟨_, exec_rxParity_bad (s := s.deliver (.lineCell c)) hb h9 hp⟩
      | true =>
        rw [exec_rxParity_good (s := s.deliver (.lineCell c)) hb h9 hp]
        rcases dispatchWord_cases (~~~s.acc) (s.deliver (.lineCell c)).clearTick with
          ⟨_, heq⟩ | ⟨_, _, heq⟩ | ⟨_, heq⟩ | ⟨h25, _⟩
        · exact ⟨_, congrArg (Result.andThen · _) heq⟩
        · exact ⟨_, congrArg (Result.andThen · _) heq⟩
        · exact ⟨_, congrArg (Result.andThen · _) heq⟩
        · exact absurd h.wordIndex (Nat.not_le.mpr h25)

/-- A rising edge answers a next state, in every state: it starts a word or is ignored. -/
theorem rise_completes (s : State) : ∃ t, perform (.lineEvent 0b01#2) s = .next t := by
  rw [perform_of_decode (decode_rise s.selection)]
  cases hs : s.selection.canStart with
  | true =>
    have hr : (s.deliver (.lineEvent 0b01#2)).WordReady := canStart_iff.mp hs
    exact ⟨_, exec_rxStart_eq hr⟩
  | false =>
    exact ⟨s.deliver (.lineEvent 0b01#2), by simp [exec, execEdgeIgn, hs]⟩

theorem fall_completes (s : State) : ∃ t, perform (.lineEvent 0b10#2) s = .next t :=
  ⟨_, perform_of_decode (s := s) (decode_fall s.selection)⟩

/-- The tick that reads a level. -/
def tickOf (l : Level) : Packet := .lineCell (BitVec.ofBool l.toBool)

theorem wordEvents_eq (cells : BitVec 12) : wordEvents cells = .lineEvent 0b01#2 :: (samples cells).map tickOf := rfl

/-- From the invariant ticks complete one after another. -/
theorem State.Inv.ticks_complete {s : State} (h : s.Inv) (ls : List Level) :
    ∃ t, performAll (ls.map tickOf) s = .next t := by
  induction ls generalizing s with
  | nil => exact ⟨s, rfl⟩
  | cons l ls ih =>
    obtain ⟨u, hu⟩ := h.tick_completes (BitVec.ofBool l.toBool)
    obtain ⟨t, ht⟩ := ih (h.wire ⟨_, .inr rfl, hu⟩)
    exact ⟨t, Result.andThen_eq_next.mpr ⟨u, hu, ht⟩⟩

/-- From the invariant the ten events of a word complete. -/
theorem State.Inv.word_completes {s : State} (h : s.Inv) (cells : BitVec 12) :
    ∃ t, performAll (wordEvents cells) s = .next t := by
  obtain ⟨u, hu⟩ := rise_completes s
  obtain ⟨t, ht⟩ := (h.wire ⟨_, .inl rfl, hu⟩).ticks_complete (samples cells)
  exact ⟨t, Result.andThen_eq_next.mpr ⟨u, hu, ht⟩⟩

/-- An input that no rule of the spec makes an event, a word or a command (R106, R107). -/
def Reject.IsIllegal (e : Reject) : Prop :=
  e = .noTransition ∨ e = .noStartEdge ∨ e = .illegalOpcode ∨ e = .reservedBits ∨ e = .badArgument

theorem decodeCommand_error {cw : BitVec 16} {pin : Nat} {timeout now : Ms} {e : Reject}
    (h : decodeCommand cw pin timeout now = .error e) : Reject.IsIllegal e := by
  simp only [decodeCommand] at h
  split_ifs at h <;> cases h <;> simp [Reject.IsIllegal]

/-- An operation out of sequence, and the name of its refusal (R184, R188). -/
def OutOfSequence (s : State) (i : Instr) (r : Refusal) : Prop :=
  (r = .notBegun ∧ s.begun = false ∧ ((isCommand i = true ∧ ∀ pin m, i ≠ .begin pin m) ∨ ∃ now, i = .wfPoll now)) ∨
  (r = .alreadyBegun ∧ s.begun = true ∧ ∃ pin m, i = .begin pin m) ∨
  (r = .waitInProgress ∧ s.begun = true ∧ s.wf.isSome = true ∧ isCommand i = true ∧ ∀ pin m, i ≠ .begin pin m) ∨
  (r = .noWait ∧ s.begun = true ∧ s.wf = none ∧ ∃ now, i = .wfPoll now)

/-- Why serving an input is refused: the input is illegal, or its operation out of sequence. -/
def RefusalCause (s : State) (p : Packet) (r : Refusal) : Prop :=
  (∃ e, r = .illegalInput e ∧ decode s.selection p = .error e ∧ Reject.IsIllegal e) ∨
  (∃ i, decode s.selection p = .ok i ∧ OutOfSequence s i r)

/-- A command but `BEGIN` in a state ready for it answers a next state. -/
theorem exec_command_ready {i : Instr} {s : State} (hi : isCommand i = true) (hne : ∀ pin m, i ≠ .begin pin m)
    (hg : s.guard = false) (hs : s.CommandReady) : ∃ t, exec i s = .next t := by
  cases i with
  | begin pin m => exact absurd rfl (hne pin m)
  | waitframe timeout now =>
    cases hm : s.mode with
    | continuous => exact ⟨_, exec_waitframe_continuous timeout now hs hm⟩
    | onDemand => exact ⟨_, exec_waitframe_onDemand timeout now hs hm⟩
  | getchraw idx => exact ⟨_, exec_read_eq rfl hg hs⟩
  | getch idx => exact ⟨_, exec_read_eq rfl hg hs⟩
  | sigloss => exact ⟨_, exec_read_eq rfl hg hs⟩
  | failsafe => exact ⟨_, exec_read_eq rfl hg hs⟩
  | _ => cases hi

/-- A command but `BEGIN`, met while the receiver is idle, answers a next state or is out of sequence. -/
theorem exec_command_outcome {i : Instr} {s : State} (hi : isCommand i = true) (hne : ∀ pin m, i ≠ .begin pin m)
    (hg : s.guard = false) (hidle : s.busy = false) :
    (∃ t, exec i s = .next t) ∨ ∃ r, exec i s = .refused r ∧ OutOfSequence s i r := by
  cases hbegun : s.begun with
  | false => exact .inr ⟨_, exec_command_notBegun hi hne hbegun, .inl ⟨rfl, hbegun, .inl ⟨hi, hne⟩⟩⟩
  | true =>
    cases hw : s.wf with
    | none => exact .inl (exec_command_ready hi hne hg ⟨hbegun, hidle, hw⟩)
    | some wt =>
      have hwait : s.wf.isSome = true := by rw [hw]; rfl
      exact .inr ⟨_, exec_command_inWait hi hne hbegun hidle hwait, .inr (.inr (.inl ⟨rfl, hbegun, hwait, hi, hne⟩))⟩

/-- An operation of CX, met while the receiver is idle, answers a next state or is out of sequence. -/
theorem exec_main_outcome {i : Instr} {s : State} (hi : isMainFormat i.rowFormat = true) (hg : s.guard = false)
    (hidle : s.busy = false) : (∃ t, exec i s = .next t) ∨ ∃ r, exec i s = .refused r ∧ OutOfSequence s i r := by
  cases i with
  | begin pin m =>
    cases hbegun : s.begun with
    | false => exact .inl ⟨_, exec_begin_eq pin m hbegun⟩
    | true => exact .inr ⟨_, exec_begin_again pin m hbegun, .inr (.inl ⟨rfl, hbegun, pin, m, rfl⟩)⟩
  | wfPoll now =>
    cases hbegun : s.begun with
    | false => exact .inr ⟨_, exec_wfPoll_notBegun now hbegun, .inl ⟨rfl, hbegun, .inr ⟨now, rfl⟩⟩⟩
    | true =>
      cases hw : s.wf with
      | none =>
        exact .inr ⟨_, exec_wfPoll_noWait now hbegun hidle hw, .inr (.inr (.inr ⟨rfl, hbegun, hw, now, rfl⟩))⟩
      | some wt => exact .inl ⟨_, exec_wfPoll_eq now hbegun hidle hw⟩
  | waitframe timeout now => exact exec_command_outcome rfl nofun hg hidle
  | getchraw idx => exact exec_command_outcome rfl nofun hg hidle
  | getch idx => exact exec_command_outcome rfl nofun hg hidle
  | sigloss => exact exec_command_outcome rfl nofun hg hidle
  | failsafe => exact exec_command_outcome rfl nofun hg hidle
  | _ => cases hi

/-- A decoded operation of CX, with the platform's part before it. -/
theorem perform_main_outcome {p : Packet} {i : Instr} {s : State} (hd : decode s.selection p = .ok i)
    (hp : isMainPacket p = true) (hg : s.guard = false) (hidle : s.busy = false) :
    (∃ t, perform p s = .next t) ∨ ∃ r, perform p s = .refused r ∧ RefusalCause s p r := by
  have hi : isMainFormat i.rowFormat = true := by rw [decode_format hd, ← isMainPacket_eq, hp]
  rw [perform_of_decode hd]
  rcases exec_main_outcome (s := s.deliver p) hi hg hidle with ht | ⟨r, hr, hseq⟩
  · exact .inl ht
  · exact .inr ⟨r, hr, .inr ⟨i, hd, hseq⟩⟩

/-- An input that does not decode, and is illegal, is refused with its reason. -/
theorem perform_illegal {p : Packet} {s : State} {e : Reject} (hd : decode s.selection p = .error e)
    (he : Reject.IsIllegal e) : ∃ r, perform p s = .refused r ∧ RefusalCause s p r :=
  ⟨_, perform_of_reject hd, .inl ⟨e, rfl, hd, he⟩⟩

/-- From the invariant, serving an input that is not held back answers a next state or is refused with a cause. -/
theorem State.Inv.serve_outcome {s : State} {p : Packet} (h : s.Inv) (hfree : held s.busy s.guard p = false) :
    (∃ t, serve p s = .next t) ∨ ∃ r, serve p s = .refused r ∧ RefusalCause s p r := by
  have hidle : isMainPacket p = true → s.busy = false := fun hp => by simpa [held, hp, h.guardFree] using hfree
  cases p with
  | lineEvent levels =>
    by_cases hrise : levels = 0b01#2
    · exact .inl (hrise ▸ rise_completes s)
    by_cases hfall : levels = 0b10#2
    · exact .inl (hfall ▸ fall_completes s)
    · have hd : decode s.selection (.lineEvent levels) = .error .noTransition := by
        simp [decode, decodeEvent, hrise, hfall]
      exact .inr (perform_illegal hd (.inl rfl))
  | lineCell c => exact .inl (h.tick_completes c)
  | lineWord cells =>
    cases hstart : cellLevel cells 0 with
    | H =>
      obtain ⟨t, ht⟩ := h.word_completes cells
      exact .inl ⟨t, by rw [serve, performWord, if_pos hstart, ht]⟩
    | L =>
      have hd : decode s.selection (.lineWord cells) = .error .noStartEdge := by simp [decode, decodeWord, hstart]
      have hserve : serve (.lineWord cells) s = .refused (.illegalInput .noStartEdge) := by
        simp [serve, performWord, hstart]
      exact .inr ⟨_, hserve, .inl ⟨_, rfl, hd, .inr (.inl rfl)⟩⟩
  | command cw pin timeout now =>
    cases hd : decode s.selection (.command cw pin timeout now) with
    | ok i => exact perform_main_outcome hd rfl h.guardFree (hidle rfl)
    | error e => exact .inr (perform_illegal hd (decodeCommand_error hd))
  | poll now => exact perform_main_outcome (p := .poll now) (i := .wfPoll now) rfl rfl h.guardFree (hidle rfl)

/-- From the invariant a step finds every input held back only at one of the three stuck ends. -/
theorem State.Inv.stuck {s : State} (h : s.Inv) (hheld : ∀ p ∈ s.inputs, held s.busy s.guard p = true) :
    (stuckReason s = .tickStall ∧ s.busy = true ∧ ∀ p ∈ s.inputs, isMainPacket p = true) ∨
    (stuckReason s = .waitUnfinished ∧ s.busy = false ∧ s.inputs = [] ∧ s.wf.isSome = true) ∨
    (stuckReason s = .inputsUsedUp ∧ s.busy = false ∧ s.inputs = [] ∧ s.wf = none) := by
  cases hb : s.busy with
  | true => exact .inl ⟨stuckReason_busy hb, rfl, fun p hp => by simpa [held, hb, h.guardFree] using hheld p hp⟩
  | false =>
    have hin : s.inputs = [] := List.eq_nil_iff_forall_not_mem.mpr fun p hp => by
      simpa [held, hb, h.guardFree] using hheld p hp
    right
    rw [stuckReason_idle hb hin]
    cases hw : s.wf with
    | none => exact .inr ⟨rfl, rfl, hin, rfl⟩
    | some wt => exact .inl ⟨rfl, rfl, hin, rfl⟩

/-- Settles O47: a step serves an input, which answers or is refused with a cause, or it is stuck. -/
theorem stepStopsOnlyWhereSpecGivesNoStep : Obligations.StepStopsOnlyWhereSpecGivesNoStep := by
  intro s hinv
  cases htake : takeInput s.busy s.guard s.inputs with
  | none =>
    have hheld := takeInput_eq_none.mp htake
    rw [step_allHeld hheld]
    refine ⟨nofun, fun f hf => ?_⟩
    cases hf
    exact hinv.stuck hheld
  | some served =>
    obtain ⟨p, rest⟩ := served
    have hstep : step s = serve p (s.withInputs rest) := by simp only [step, htake]
    rw [hstep]
    rcases (hinv.withInputs rest).serve_outcome (takeInput_eq_some htake).1 with ⟨t, ht⟩ | ⟨r, hr, hcause⟩
    · rw [ht]
      exact ⟨nofun, nofun⟩
    · rw [hr]
      refine ⟨fun r' hr' => ?_, nofun⟩
      cases hr'
      exact ⟨p, rest, rfl, hcause⟩

end Sys2Proof.Machine
end

section
/-! PROOFS. Whole words (spec/40_receiver.md section 3, spec/20_memory.md section 5): what the samples of a word leave, a
word as one step and as ten, and the statements O37 to O41, assembled from these. -/

namespace Sys2Proof.Machine

/-! ### What the first nine events of a word leave -/

/-- The two states agree on everything but the working registers of a word and the flags of the platform. -/
structure State.SameOutsideWord (s t : State) : Prop extends s.SameConsumer t where
  rxEn : t.rxEn = s.rxEn
  wi : t.wi = s.wi
  payload : t.payload = s.payload

theorem State.SameOutsideWord.refl (s : State) : s.SameOutsideWord s :=
  ⟨.refl s, rfl, rfl, rfl⟩

theorem State.SameOutsideWord.trans {s t u : State} (h : s.SameOutsideWord t) (k : t.SameOutsideWord u) :
    s.SameOutsideWord u where
  toSameConsumer := h.toSameConsumer.trans k.toSameConsumer
  rxEn := k.rxEn.trans h.rxEn
  wi := k.wi.trans h.wi
  payload := k.payload.trans h.payload

/-- The state after the tick of a data sample. -/
def State.sampled (s : State) (l : Level) : State := (s.deliver (tickOf l)).clearTick.takeSample l

theorem State.sameOutsideWord_sampled (s : State) (l : Level) : s.SameOutsideWord (s.sampled l) :=
  ⟨by constructor <;> rfl, rfl, rfl, rfl⟩

theorem perform_dataTick {s : State} (l : Level) (hb : s.busy = true) (h1 : 1 ≤ s.bi.toNat) (h8 : s.bi.toNat ≤ 8) :
    perform (tickOf l) s = .next (s.sampled l) := by
  have hd : decode s.selection (tickOf l) = .ok (.rxData l) := by
    rw [tickOf, decode_dataCell _ hb h1 h8, level_of_cell]
  rw [perform_of_decode hd, exec_rxData_eq (s := s.deliver (tickOf l)) l hb h1 h8]
  rfl

theorem perform_parityTick {s : State} (l : Level) (hb : s.busy = true) (h9 : s.bi.toNat = 9) :
    perform (tickOf l) s = exec (.rxParity l) (s.deliver (tickOf l)) := by
  have hd : decode s.selection (tickOf l) = .ok (.rxParity l) := by
    rw [tickOf, decode_parityCell _ hb h9, level_of_cell]
  exact perform_of_decode hd

/-- A sample puts its level in its own bit of the accumulator, and leaves the others (R21). -/
theorem accAfter_getLsbD (acc : BitVec 8) {bi : BitVec 4} (l : Level) {b : Nat} (h1 : 1 ≤ bi.toNat) (hb : b < 8) :
    (accAfter acc bi l).getLsbD b = (acc.getLsbD b || (decide (b + 1 = bi.toNat) && l.toBool)) := by
  cases l with
  | L => simp [accAfter, Level.toBool]
  | H =>
    have hbit : bi.toNat - 1 = b ↔ b + 1 = bi.toNat := by omega
    rw [accAfter_eq, if_pos rfl, BitVec.getLsbD_or, BitVec.getLsbD_twoPow, Level.toBool, Bool.and_true]
    by_cases h : b + 1 = bi.toNat
    · simp [hbit, h]; omega
    · simp [hbit, h]

/-- Data samples, from bit index `bi` on: each goes to its bit of `acc`, and `par` counts them (R21, R22, R132). -/
theorem performAll_dataTicks (ls : List Level) {s : State} (hb : s.busy = true) (h1 : 1 ≤ s.bi.toNat)
    (h9 : s.bi.toNat + ls.length ≤ 9) :
    ∃ u, performAll (ls.map tickOf) s = .next u ∧ u.busy = true ∧ u.bi.toNat = s.bi.toNat + ls.length ∧
      s.SameOutsideWord u ∧
      (∀ b, b < 8 → u.acc.getLsbD b =
        (s.acc.getLsbD b || (decide (s.bi.toNat ≤ b + 1) && (ls.map Level.toBool).getD (b + 1 - s.bi.toNat) false))) ∧
      u.par = if oddHigh ls then ~~~s.par else s.par := by
  induction ls generalizing s with
  | nil => exact ⟨s, rfl, hb, rfl, .refl s, by simp, rfl⟩
  | cons l ls ih =>
    rw [List.length_cons] at h9
    have hbi : (s.sampled l).bi.toNat = s.bi.toNat + 1 := bitIndex_succ (show s.bi.toNat ≤ 8 by omega)
    obtain ⟨u, hu, hbusy, hui, hsame, hacc, hpar⟩ := ih (s := s.sampled l) hb (by omega) (by omega)
    refine ⟨u, ?_, hbusy, by rw [hui, hbi, List.length_cons]; omega, (s.sameOutsideWord_sampled l).trans hsame,
      fun b hb8 => ?_, ?_⟩
    · rw [List.map_cons, performAll, perform_dataTick l hb h1 (by omega), Result.andThen_next, hu]
    · have hs : (s.sampled l).acc.getLsbD b = (s.acc.getLsbD b || (decide (b + 1 = s.bi.toNat) && l.toBool)) :=
        accAfter_getLsbD s.acc l h1 hb8
      rw [hacc b hb8, hs, hbi]
      rcases Nat.lt_trichotomy (b + 1) s.bi.toNat with h | h | h
      · simp [h.ne, Nat.not_le.mpr h, Nat.not_le.mpr (Nat.lt_succ_of_lt h)]
      · simp [h]
      · obtain ⟨n, hn⟩ : ∃ n, b + 1 = s.bi.toNat + (n + 1) := ⟨b - s.bi.toNat, by omega⟩
        simp [hn, show s.bi.toNat + (n + 1) - s.bi.toNat = n + 1 by omega,
          show s.bi.toNat + (n + 1) - (s.bi.toNat + 1) = n by omega]
    · have hs : (s.sampled l).par = parityAfter s.par l := rfl
      rw [hpar, hs]
      cases l <;> cases hodd : oddHigh ls <;> simp [oddHigh, hodd, parityAfter, Level.toBool]

theorem oddHigh_append (xs ys : List Level) : oddHigh (xs ++ ys) = (oddHigh xs ^^ oddHigh ys) := by
  induction xs with
  | nil => simp [oddHigh]
  | cons x xs ih => simp [oddHigh, ih]

/-- The check of tick 9 on a `par` that has counted: the ninth level makes the number of `H` odd (R93, R133). -/
theorem parityOk_counted (odd : Bool) (l : Level) :
    parityOk (if odd then 0x00#8 else 0xFF#8) l = (odd ^^ l.toBool) := by
  cases odd <;> cases l <;> decide

theorem wordEvents_split (cells : BitVec 12) :
    wordEvents cells = (wordEvents cells).take 9 ++ [tickOf (cellLevel cells 9)] := rfl

/-- What the rising edge and the eight data samples of a word leave: the receiver at its ninth tick. -/
structure State.AtNinthTick (s u : State) (cells : BitVec 12) : Prop extends s.SameOutsideWord u where
  busy : u.busy = true
  bitIndex : u.bi = 9
  acc : ∀ b, b < 8 → u.acc.getLsbD b = (cellLevel cells (b + 1)).toBool
  par : u.par = if oddHigh ((samples cells).take 8) then 0x00#8 else 0xFF#8

theorem perform_startEdge {s : State} (hs : s.WordReady) :
    perform (.lineEvent 0b01#2) s = .next (s.deliver (.lineEvent 0b01#2)).enterWord := by
  rw [perform_of_decode (decode_rise s.selection), if_pos (canStart_iff.mpr hs)]
  exact exec_rxStart_eq (s := s.deliver (.lineEvent 0b01#2)) hs

/-- From a word-ready state the first nine events of a word complete. -/
theorem performAll_nineEvents {s : State} (hs : s.WordReady) (cells : BitVec 12) :
    ∃ u, performAll ((wordEvents cells).take 9) s = .next u ∧ s.AtNinthTick u cells := by
  have hsame : s.SameOutsideWord (s.deliver (.lineEvent 0b01#2)).enterWord := ⟨by constructor <;> rfl, rfl, rfl, rfl⟩
  obtain ⟨u, hu, hbusy, hbi, hsame', hacc, hpar⟩ :=
    performAll_dataTicks ((samples cells).take 8) (s := (s.deliver (.lineEvent 0b01#2)).enterWord) rfl
      (Nat.le_refl 1) (Nat.le_refl 9)
  refine ⟨u, ?_, hsame.trans hsame', hbusy, BitVec.toNat_inj.mp hbi, fun b hb => ?_, ?_⟩
  · exact Result.andThen_eq_next.mpr ⟨_, perform_startEdge hs, hu⟩
  · rw [hacc b hb]
    interval_cases b <;> simp [samples]
  · rw [hpar]
    split_ifs
    · exact (by decide : ~~~0xFF#8 = 0x00#8)
    · rfl

theorem State.AtNinthTick.acc_eq {s u : State} {cells : BitVec 12} (h : s.AtNinthTick u cells) :
    u.acc = ~~~wordByte cells := by
  refine BitVec.eq_of_getLsbD_eq fun b hb => ?_
  rw [h.acc b hb, cellLevel_toBool, BitVec.getLsbD_not, wordByte_getLsbD cells hb, Bool.not_not, decide_eq_true hb,
    Bool.true_and, show 11 - (b + 1) = 10 - b by omega]

theorem State.AtNinthTick.parityOk_eq {s u : State} {cells : BitVec 12} (h : s.AtNinthTick u cells) :
    parityOk u.par (cellLevel cells 9) = oddHigh (samples cells) := by
  have hsplit : oddHigh (samples cells) = (oddHigh ((samples cells).take 8) ^^ oddHigh [cellLevel cells 9]) :=
    oddHigh_append ((samples cells).take 8) [cellLevel cells 9]
  rw [h.par, parityOk_counted, hsplit, oddHigh, oddHigh, Bool.xor_false]

/-! ### A whole word as one step -/

theorem held_lineWord {busy guard : Bool} (cells : BitVec 12) (hg : guard = false) :
    held busy guard (.lineWord cells) = false := by
  simp [held, isMainPacket, hg]

/-- The step that serves a whole word is its ten events. -/
theorem step_word {s : State} {cells : BitVec 12} {rest : List Packet} (hin : s.inputs = .lineWord cells :: rest)
    (hg : s.guard = false) (hstart : cellLevel cells 0 = .H) :
    step s = performAll (wordEvents cells) (s.withInputs rest) := by
  rw [step_head hin (held_lineWord cells hg), serve, performWord, if_pos hstart]

/-- The ten events of a word end in its ninth sample, on the state the others leave. -/
theorem performAll_wordEvents {s u : State} {cells : BitVec 12}
    (hu : performAll ((wordEvents cells).take 9) s = .next u) (hat : s.AtNinthTick u cells) :
    performAll (wordEvents cells) s =
      exec (.rxParity (cellLevel cells 9)) (u.deliver (tickOf (cellLevel cells 9))) := by
  rw [wordEvents_split cells, performAll_append, hu, Result.andThen_next, performAll,
    perform_parityTick _ hat.busy (congrArg BitVec.toNat hat.bitIndex)]
  exact Result.andThen_self _

/-- The word dispatch executes the operation that the word index selects. -/
theorem dispatchWord_eq_wordOperation (d : Byte) {s : State} (hwi : s.wi.toNat ≤ 24) :
    dispatchWord d s = exec (wordOperation s.wi d) s := by
  simp only [dispatchWord, wordOperation]
  split_ifs
  · rfl
  · omega
  · rfl
  · rfl
  · omega

/-- A whole word as one step: after nine events that leave everything outside the word, the dispatch of its byte or the
parity error, and the end of the word. -/
theorem step_word_outcome {s : State} {cells : BitVec 12} {rest : List Packet} (hs : s.WordReady)
    (hg : s.guard = false) (hin : s.inputs = .lineWord cells :: rest) (hstart : cellLevel cells 0 = .H) :
    ∃ u, (s.withInputs rest).SameOutsideWord u ∧
      (oddHigh (samples cells) = false → step s = .next (u.setWi 0).leaveWord) ∧
      (oddHigh (samples cells) = true →
        step s = (dispatchWord (wordByte cells) u).andThen fun t => .next t.leaveWord) := by
  obtain ⟨u, hu, hat⟩ := performAll_nineEvents (s := s.withInputs rest) hs cells
  have h9 : u.bi.toNat = 9 := congrArg BitVec.toNat hat.bitIndex
  have hsame : u.SameOutsideWord (u.deliver (tickOf (cellLevel cells 9))).clearTick :=
    ⟨by constructor <;> rfl, rfl, rfl, rfl⟩
  have hp := hat.parityOk_eq
  rw [step_word hin hg hstart, performAll_wordEvents hu hat]
  refine ⟨_, hat.toSameOutsideWord.trans hsame, fun hodd => ?_, fun hodd => ?_⟩
  · exact exec_rxParity_bad (s := u.deliver _) hat.busy h9 (hp.trans hodd)
  · have hgood := exec_rxParity_good (s := u.deliver (tickOf (cellLevel cells 9))) hat.busy h9 (hp.trans hodd)
    rwa [State.deliver_acc, hat.acc_eq, BitVec.not_not] at hgood

/-! ### The ten events of a word as ten steps -/

/-- The machine's run, over the model's own types. -/
def runSteps : Nat → State → Result
  | 0, s => .next s
  | n + 1, s => Result.andThen (step s) (runSteps n)

theorem core_run_eq (n : Nat) (s : State) : Sys2Proof.core.run n s = runSteps n s := by
  induction n generalizing s with
  | zero => rfl
  | succ n ih =>
    rw [core_run_succ]
    exact congrArg _ (funext fun t => ih t)

theorem runSteps_one (s : State) : runSteps 1 s = step s :=
  Result.andThen_self _

theorem runSteps_add (m n : Nat) (s : State) : runSteps (m + n) s = Result.andThen (runSteps m s) (runSteps n) := by
  induction m generalizing s with
  | zero => rw [Nat.zero_add, runSteps, Result.andThen_next]
  | succ m ih =>
    rw [Nat.add_right_comm, runSteps, runSteps, Result.andThen_assoc]
    exact congrArg _ (funext fun t => ih t)

/-- A run and one step more. -/
theorem runSteps_then_step {n : Nat} {s t u : State} (ht : runSteps n s = .next t) (hu : step t = .next u) :
    runSteps (n + 1) s = .next u := by
  rw [runSteps_add n 1, ht, Result.andThen_next, runSteps_one, hu]

/-- While the receiver is busy, the scheduler passes the pending inputs of CX over for the line's next (R73, R213). -/
theorem takeInput_behind {pending : List Packet} (hmain : ∀ p ∈ pending, isMainPacket p = true) {e : Packet}
    (he : isMainPacket e = false) (es : List Packet) :
    takeInput true false (pending ++ e :: es) = some (e, pending ++ es) := by
  induction pending with
  | nil => exact takeInput_head (by simp [held, he])
  | cons p pending ih =>
    have hp : held true false p = true := by simp [held, hmain p (by simp)]
    simp [takeInput, hp, ih fun q hq => hmain q (by simp [hq])]

theorem step_tick_behind {s : State} {pending rest : List Packet} (hmain : ∀ p ∈ pending, isMainPacket p = true)
    (hb : s.busy = true) (hg : s.guard = false) (l : Level) :
    step (s.withInputs (pending ++ tickOf l :: rest)) = perform (tickOf l) (s.withInputs (pending ++ rest)) := by
  have htake := takeInput_behind hmain (e := tickOf l) rfl rest
  simp only [step, State.withInputs_busy, State.withInputs_guard, State.withInputs_inputs, hb, hg, htake]
  rfl

/-- Ticks up to the ninth, one step each, with inputs of CX held back in front of them. -/
theorem runSteps_ticks_behind {pending rest : List Packet} (hmain : ∀ p ∈ pending, isMainPacket p = true) (ls : List Level)
    {s : State} (hb : s.busy = true) (hg : s.guard = false) (h1 : 1 ≤ s.bi.toNat)
    (h10 : s.bi.toNat + ls.length ≤ 10) :
    runSteps ls.length (s.withInputs (pending ++ (ls.map tickOf ++ rest))) =
      performAll (ls.map tickOf) (s.withInputs (pending ++ rest)) := by
  induction ls generalizing s with
  | nil => rfl
  | cons l ls ih =>
    rw [List.length_cons] at h10 ⊢
    rw [List.map_cons, List.cons_append, runSteps, step_tick_behind hmain hb hg, performAll]
    rcases Nat.lt_or_ge 8 s.bi.toNat with h9 | h8
    · -- the ninth tick is the last
      have hnil : ls = [] := List.length_eq_zero_iff.mp (by omega)
      subst hnil
      rfl
    · have hbi : (s.sampled l).bi.toNat = s.bi.toNat + 1 := bitIndex_succ h8
      have htick : ∀ ps, perform (tickOf l) (s.withInputs ps) = .next ((s.sampled l).withInputs ps) :=
        fun ps => perform_dataTick (s := s.withInputs ps) l hb h1 h8
      rw [htick, htick, Result.andThen_next, Result.andThen_next]
      exact ih (s := s.sampled l) hb hg (by omega) (by omega)

/-- A rising edge, then inputs of CX, then the ticks of the word: ten steps take the word and leave the inputs of CX. -/
theorem runSteps_word_behind {s : State} {pending rest : List Packet} (cells : BitVec 12)
    (hmain : ∀ p ∈ pending, isMainPacket p = true) (hr : s.WordReady) (hg : s.guard = false) :
    runSteps 10 (s.withInputs (.lineEvent 0b01#2 :: (pending ++ ((samples cells).map tickOf ++ rest)))) =
      performAll (wordEvents cells) (s.withInputs (pending ++ rest)) := by
  have hfree : held s.busy s.guard (.lineEvent 0b01#2) = false := by simp [held, isMainPacket, hg]
  have hticks := runSteps_ticks_behind (rest := rest) hmain (samples cells)
    (s := (s.deliver (.lineEvent 0b01#2)).enterWord) rfl hg (Nat.le_refl 1) (Nat.le_refl 10)
  have hstart : ∀ ps, perform (.lineEvent 0b01#2) (s.withInputs ps) =
      .next ((s.deliver (.lineEvent 0b01#2)).enterWord.withInputs ps) :=
    fun ps => perform_startEdge (s := s.withInputs ps) hr
  have hstep : ∀ ps, step (s.withInputs (.lineEvent 0b01#2 :: ps)) =
      .next ((s.deliver (.lineEvent 0b01#2)).enterWord.withInputs ps) :=
    fun ps => (step_head (s := s.withInputs (.lineEvent 0b01#2 :: ps)) rfl hfree).trans (hstart ps)
  rw [runSteps, hstep, wordEvents_eq, performAll, hstart, Result.andThen_next, Result.andThen_next]
  exact hticks

/-! ### The statements -/

/-- Settles O38, from the induction over the eight data samples. -/
theorem samplesAccumulate : Obligations.SamplesAccumulate := by
  intro s cells hs
  obtain ⟨u, hu, hat⟩ := performAll_nineEvents hs cells
  exact ⟨u, hu, hat.busy, hat.bitIndex, hat.acc, hat.par, hat.parityOk_eq⟩

/-- Settles O37: what decodes to a word operation has good parity, so the ninth sample dispatches that operation. -/
theorem wordStepRunsDecodedOperation : Obligations.WordStepRunsDecodedOperation := by
  intro s cells rest i hin hg hd
  obtain ⟨hcell, hs, hodd, hwi, rfl⟩ := (decode_word_ok_iff _ _ _).mp hd
  have hstart : cellLevel cells 0 = .H := by rw [cellLevel, hcell, Level.ofBool]
  obtain ⟨u, hu, hat⟩ := performAll_nineEvents (s := s.withInputs rest) (canStart_iff.mp hs) cells
  have h9 : u.bi.toNat = 9 := congrArg BitVec.toNat hat.bitIndex
  refine ⟨u, hu, hat.busy, hat.bitIndex, hat.acc_eq, hat.wi, hat.payload, ?_⟩
  have hwiu : u.wi = s.wi := hat.wi
  rw [step_word hin hg hstart, performAll_wordEvents hu hat,
    exec_rxParity_good (s := u.deliver _) hat.busy h9 (hat.parityOk_eq.trans hodd), State.deliver_acc, hat.acc_eq,
    BitVec.not_not, dispatchWord_eq_wordOperation _ (by simpa [hwiu] using hwi)]
  rw [State.clearTick_wi, State.deliver_wi, hwiu]
  rfl

/-- Settles O39: the parity error and the three ranges of the dispatch, on a state that agrees outside the word. -/
theorem wordStepFollowsTransitionTable : Obligations.WordStepFollowsTransitionTable := by
  intro s cells rest hs hg hwi hin hstart
  obtain ⟨u, hu, hbad, hgood⟩ := step_word_outcome hs hg hin hstart
  have huwi : u.wi = s.wi := hu.wi
  have hopen : u.rxEn = true := hu.rxEn.trans hs.2.1
  suffices h : ∃ t, step s = .next t ∧ t.busy = false ∧
      (oddHigh (samples cells) = false → t.wi = 0 ∧ t.rxEn = true ∧ t.payload = s.payload) ∧
      (oddHigh (samples cells) = true →
        (s.wi.toNat = 0 →
          t.wi = (if wordByte cells = 0x0F#8 then 1 else 0) ∧ t.rxEn = true ∧ t.payload = s.payload) ∧
        (1 ≤ s.wi.toNat → s.wi.toNat ≤ 23 →
          t.wi.toNat = s.wi.toNat + 1 ∧ t.rxEn = true ∧
          ∀ a, t.byteAt a = if a = s.wi.toNat - 1 then wordByte cells else s.byteAt a) ∧
        (s.wi.toNat = 24 →
          t.wi = 0 ∧ t.rxEn = (s.mode == .continuous) ∧ t.payload = s.payload)) by
    obtain ⟨t, ht, hidle, hcases⟩ := h
    have hserve : serve (.lineWord cells) (s.withInputs rest) = .next t :=
      (step_head hin (held_lineWord cells hg)).symm.trans ht
    have hsame := wire_sameConsumer (serve_wire rfl hserve)
    exact ⟨t, ht, hsame.inputs, hidle, hsame.begun.trans hs.1, hsame.mode, hsame.wf, hsame.guard.trans hg,
      hsame.returned, hsame.watchedPin, hsame.tickPeriod, hcases⟩
  cases hodd : oddHigh (samples cells) with
  | false => exact ⟨_, hbad hodd, rfl, fun _ => ⟨rfl, hopen, hu.payload⟩, nofun⟩
  | true =>
    rw [hgood hodd]
    rcases dispatchWord_cases (wordByte cells) u with ⟨h0, heq⟩ | ⟨h1, h23, heq⟩ | ⟨h24, heq⟩ | ⟨h25, _⟩
    · rw [heq]
      rw [huwi] at h0
      exact ⟨_, rfl, rfl, nofun, fun _ => ⟨fun _ => ⟨rfl, hopen, hu.payload⟩, by omega, by omega⟩⟩
    · rw [heq]
      rw [huwi] at h1 h23
      refine ⟨_, rfl, rfl, nofun, fun _ => ⟨by omega, fun _ _ => ⟨?_, hopen, fun a => ?_⟩, by omega⟩⟩
      · rw [State.leaveWord_wi, State.setWi_wi, huwi, wordIndex_succ h23]
      · have hbyte : u.byteAt a = s.byteAt a := congrArg (Memory.read a) hu.payload
        rw [State.leaveWord_byteAt, State.setWi_byteAt, State.putByte_byteAt, huwi, hbyte]
    · rw [heq]
      rw [huwi] at h24
      have hmode : u.mode = s.mode := hu.mode
      refine ⟨_, rfl, rfl, nofun, fun _ => ⟨by omega, by omega, fun _ => ⟨rfl, ?_, ?_⟩⟩⟩
      · rw [hmode]
        cases s.mode with
        | continuous => exact hopen
        | onDemand => rfl
      · rw [hmode]
        cases s.mode with
        | continuous => exact hu.payload
        | onDemand => exact hu.payload
    · rw [huwi] at h25
      omega

/-- Settles O40: with nothing held back, ten steps and one step are the same ten events. -/
theorem wordStepEqualsTenEventSteps : Obligations.WordStepEqualsTenEventSteps := by
  intro s cells rest hs hg _ hstart
  have hten := runSteps_word_behind (pending := []) (rest := rest) cells nofun hs hg
  have hone := step_word (s := s.withInputs (.lineWord cells :: rest)) rfl hg hstart
  rw [core_run_eq, core_run_eq, runSteps_one, hone]
  exact hten

/-- Settles O41: either way ten steps take the word's events and leave the command or poll first. -/
theorem lateReadWaitsOutTheWord : Obligations.LateReadWaitsOutTheWord := by
  intro s cells p rest hs hg _ hp
  have hlate := runSteps_word_behind (pending := [p]) (rest := rest) cells (by simpa using hp) hs hg
  have hafter := runSteps_word_behind (pending := []) (rest := p :: rest) cells nofun hs hg
  rw [core_run_eq, core_run_eq, runSteps_add 10 1, runSteps_add 10 1]
  exact congrArg (Result.andThen · _) (hlate.trans hafter.symm)

end Sys2Proof.Machine
end

section
/-! PROOFS. Frames on the line (spec/40_receiver.md section 3, spec/20_memory.md section 5): the first words of a frame, by
induction on their number, and the statements O53 to O55, assembled from these. -/

namespace Sys2Proof.Machine

/-- After the first k + 1 words of a frame: k new bytes, the old ones above, and the next word awaited. -/
structure State.PartialFrame (s t : State) (v : Nat → Byte) (k : Nat) (rest : List Packet) : Prop where
  ready : t.WordReady
  guard : t.guard = false
  inputs : t.inputs = rest
  wi : t.wi.toNat = k + 1
  mode : t.mode = s.mode
  wf : t.wf = s.wf
  returned : t.returned = s.returned
  bytes : ∀ a, t.byteAt a = if a < k then v (a + 1) else s.byteAt a

/-- The sentinel word begins a frame. -/
theorem sentinel_partialFrame {s : State} {v : Nat → Byte} {rest : List Packet} (hs : s.WordReady)
    (hg : s.guard = false) (h0 : s.wi = 0) (hv : v 0 = 0x0F#8) (hin : s.inputs = goodWord (v 0) :: rest) :
    ∃ t, step s = .next t ∧ s.PartialFrame t v 0 rest := by
  have hwi : s.wi.toNat = 0 := congrArg BitVec.toNat h0
  obtain ⟨t, ht, htin, hidle, hbegun, hmode, hwf, htg, hret, _, _, _, hgood⟩ :=
    wordStepFollowsTransitionTable s (wordCells (v 0)) rest hs hg (by omega) hin (cellLevel_zero_wordCells _)
  obtain ⟨htwi, hopen, hpay⟩ := (hgood (oddHigh_samples_wordCells _)).1 hwi
  refine ⟨t, ht, ⟨hbegun, hopen, hidle⟩, htg, htin, ?_, hmode, hwf, hret, fun a => congrArg (Memory.read a) hpay⟩
  rw [htwi, wordByte_wordCells, if_pos hv]
  rfl

/-- A payload word stores the next byte of the frame. -/
theorem State.PartialFrame.payload {s t : State} {v : Nat → Byte} {k : Nat} {rest : List Packet}
    (h : s.PartialFrame t v k (goodWord (v (k + 1)) :: rest)) (hk : k < 23) :
    ∃ u, step t = .next u ∧ s.PartialFrame u v (k + 1) rest := by
  obtain ⟨u, hu, huin, hidle, hbegun, hmode, hwf, hug, hret, _, _, _, hgood⟩ :=
    wordStepFollowsTransitionTable t (wordCells (v (k + 1))) rest h.ready h.guard (by rw [h.wi]; omega) h.inputs
      (cellLevel_zero_wordCells _)
  obtain ⟨huwi, hopen, hbytes⟩ :=
    (hgood (oddHigh_samples_wordCells _)).2.1 (by rw [h.wi]; omega) (by rw [h.wi]; omega)
  refine ⟨u, hu, ⟨hbegun, hopen, hidle⟩, hug, huin, by rw [huwi, h.wi], hmode.trans h.mode, hwf.trans h.wf,
    hret.trans h.returned, fun a => ?_⟩
  rw [hbytes a, h.bytes a, h.wi, wordByte_wordCells]
  rcases Nat.lt_trichotomy a k with hlt | rfl | hgt
  · rw [if_neg (by omega), if_pos hlt, if_pos (by omega)]
  · rw [if_pos (by omega), if_pos (by omega)]
  · rw [if_neg (by omega), if_neg (by omega), if_neg (by omega)]

/-- The first k + 1 words of a frame, one step each. -/
theorem runSteps_partialFrame {s : State} {v : Nat → Byte} (hs : s.WordReady) (hg : s.guard = false) (h0 : s.wi = 0)
    (hv : v 0 = 0x0F#8) (k : Nat) (hk : k ≤ 23) (rest : List Packet)
    (hin : s.inputs = (List.range (k + 1)).map (fun n => goodWord (v n)) ++ rest) :
    ∃ t, runSteps (k + 1) s = .next t ∧ s.PartialFrame t v k rest := by
  induction k generalizing rest with
  | zero =>
    obtain ⟨t, ht, hframe⟩ := sentinel_partialFrame hs hg h0 hv hin
    exact ⟨t, (runSteps_one s).trans ht, hframe⟩
  | succ k ih =>
    rw [List.range_succ, List.map_append, List.append_assoc] at hin
    obtain ⟨t, ht, hframe⟩ := ih (by omega) _ hin
    obtain ⟨u, hu, hframe'⟩ := hframe.payload (by omega)
    exact ⟨u, runSteps_then_step ht hu, hframe'⟩

/-- A word that fails at its check, or at the sentinel's value, drops the frame and leaves the buffer (R144). -/
theorem step_failedWord {s : State} {bad : BitVec 12} {rest : List Packet} (hs : s.WordReady) (hg : s.guard = false)
    (hwi : s.wi.toNat ≤ 24) (hin : s.inputs = .lineWord bad :: rest) (hstart : cellLevel bad 0 = .H)
    (hbad : oddHigh (samples bad) = false ∨ s.wi.toNat = 0 ∧ wordByte bad ≠ 0x0F#8) :
    ∃ t, step s = .next t ∧ t.inputs = rest ∧ t.busy = false ∧ t.wi = 0 ∧ t.rxEn = true ∧ t.payload = s.payload := by
  obtain ⟨t, ht, htin, hidle, _, _, _, _, _, _, _, hodd, hgood⟩ :=
    wordStepFollowsTransitionTable s bad rest hs hg hwi hin hstart
  refine ⟨t, ht, htin, hidle, ?_⟩
  cases hpar : oddHigh (samples bad) with
  | false => exact hodd hpar
  | true =>
    rcases hbad with hbad | ⟨h0, hbyte⟩
    · exact absurd (hpar.symm.trans hbad) Bool.noConfusion
    · obtain ⟨htwi, hrest⟩ := (hgood hpar).1 h0
      exact ⟨htwi.trans (if_neg hbyte), hrest⟩

/-! ### The statements -/

/-- Settles O53: the induction over the words of a frame, read off at word k. -/
theorem partialFrameIsVisible : Obligations.PartialFrameIsVisible := by
  intro s v k rest hs hg h0 hv hk hin
  obtain ⟨t, ht, h⟩ := runSteps_partialFrame hs hg h0 hv k hk rest hin
  obtain ⟨_, hopen, hidle⟩ := h.ready
  exact ⟨t, (core_run_eq _ _).trans ht, h.inputs, hidle, h.wi, hopen, h.wf, h.returned, h.bytes⟩

/-- Settles O54: 24 words leave word index 24 and 23 new bytes, and the terminator keeps the buffer. -/
theorem goodFrameFillsBuffer : Obligations.GoodFrameFillsBuffer := by
  intro s v rest hs hg h0 hv hin
  rw [List.range_succ, List.map_append, List.append_assoc] at hin
  obtain ⟨t, ht, h⟩ := runSteps_partialFrame hs hg h0 hv 23 (Nat.le_refl _) _ hin
  obtain ⟨u, hu, huin, hidle, _, _, _, _, _, _, _, _, hgood⟩ :=
    wordStepFollowsTransitionTable t (wordCells (v 24)) rest h.ready h.guard (by rw [h.wi]) h.inputs
      (cellLevel_zero_wordCells _)
  obtain ⟨huwi, hpath, hpay⟩ := (hgood (oddHigh_samples_wordCells _)).2.2 h.wi
  refine ⟨u, (core_run_eq _ _).trans (runSteps_then_step ht hu), huin, hidle, huwi, by rw [hpath, h.mode],
    fun k hk => ?_⟩
  rw [State.byteAt, hpay]
  exact (h.bytes k).trans (if_pos hk)

/-- Settles O55: word j fails at once, or on the partial frame that the words before it leave. -/
theorem failedWordAbandonsFrame : Obligations.FailedWordAbandonsFrame := by
  intro s v j bad rest hs hg h0 hv hj hstart hbad hin
  have hwi : s.wi.toNat = 0 := congrArg BitVec.toNat h0
  cases j with
  | zero =>
    obtain ⟨t, ht, htin, hidle, htwi, hopen, hpay⟩ :=
      step_failedWord hs hg (by omega) hin hstart (hbad.imp_right fun h => ⟨hwi, h.2⟩)
    exact ⟨t, ((core_run_eq _ _).trans (runSteps_one s)).trans ht, htin, hidle, htwi, hopen,
      fun a => congrArg (Memory.read a) hpay⟩
  | succ k =>
    have hodd : oddHigh (samples bad) = false := hbad.resolve_right fun h => absurd h.1 (Nat.succ_ne_zero k)
    obtain ⟨t, ht, h⟩ := runSteps_partialFrame hs hg h0 (hv (Nat.succ_pos k)) k (by omega) _ hin
    obtain ⟨u, hu, huin, hidle, huwi, hopen, hpay⟩ :=
      step_failedWord h.ready h.guard (by rw [h.wi]; omega) h.inputs hstart (.inl hodd)
    refine ⟨u, (core_run_eq _ _).trans (runSteps_then_step ht hu), huin, hidle, huwi, hopen, fun a => ?_⟩
    rw [State.byteAt, hpay]
    exact h.bytes a

end Sys2Proof.Machine
end
